-- ==== Sys2Proof/Word.lean ====
section
/-! DEFINITION. The word types of the block: a bus identifier is a 32-bit number, a target or sender address has
13 bits, a payload byte has 8 (R8, R50, R70, R76). -/

namespace Sys2Proof

/-- One payload byte (R76). -/
abbrev Byte := BitVec 8

/-- A raw bus identifier, a mask or a filter word: 32 bits, unsigned (R8, R70). -/
abbrev Word := BitVec 32

/-- A target or sender address: 13 bits (R70). -/
abbrev Addr := BitVec 13

end Sys2Proof
end

