-- ==== Sys2Proof/Config.lean ====
section
/-! DEFINITION. What is fixed for one block (R6): the configuration as plain data, and the values no rule fixes
(uninterpreted constants with no body). Every parameter the source leaves open is a field here, so a statement
about every state is a statement about every configuration (log 1). -/

namespace Sys2Proof

/-- The unit preference, Metric or Imperial (R39). -/
inductive Units where
  | metric
  | imperial
  deriving DecidableEq, Repr, Inhabited

/-- A stored value of a channel. The type `Value[i]` is open (R6, D27); a byte string stands for any of them
(DESIGN CHOICE, log 2). -/
abbrev Value := List Byte

/-- The variant of a channel, `VARIANT[i]` (R6, R172, R173). -/
inductive Variant where
  | temperature
  | proximityAssist
  | other (n : Nat)
  deriving DecidableEq, Repr, Inhabited

/-- The payload decoder `DECODE[i]` of a slot (R162), as data. `leading n` is the form of the test configuration
(95_test_vectors.md section 1): the first `n` bytes of a payload that has them. `param k` is any total pure function
at all, `Config.freeDecode k` (DESIGN CHOICE, log 3). -/
inductive Decoder where
  | leading (n : Nat)
  | param (k : Nat)
  deriving DecidableEq, Repr, Inhabited

/-- The answer to one bring-up attempt (R11). -/
inductive AttemptResult where
  | ok
  | fail
  deriving DecidableEq, Repr, Inhabited

/-- The read-only constants of one slot (R32, C1 of R37). An address is a number here, so that the check of R7 that it
has 13 bits can fail (I25). -/
structure SlotParams where
  /-- `VARIANT[i]` -/
  variant : Variant
  /-- `ACCEPT_ADDR[i]` -/
  acceptAddr : Nat
  /-- `NAME[i]` -/
  name : String
  /-- `DECODE[i]` -/
  decoder : Decoder
  deriving DecidableEq, Repr, Inhabited

/-- The unit table `UNITS_OF_NIBBLE` (R6): nibble 1 is mapped to some unit in every configuration, by its type; any other
nibble may be unmapped, and one past the end of `rest` is (log 3). -/
structure UnitTable where
  /-- nibble 0 -/
  zero : Option Units
  /-- nibble 1 -/
  one : Units
  /-- nibbles 2, 3, ... -/
  rest : List (Option Units)
  deriving DecidableEq, Repr, Inhabited

/-- The read-only parameters that belong to no slot (R6, R28, C0 and C2 of R37). `NUM_MASKS` and `NUM_FILTERS` are the
lengths of the two lists. -/
structure Params where
  /-- `ADDR_UNITS`, the target of the unit-preference broadcast -/
  addrUnits : Nat
  /-- `UNITS_OF_NIBBLE` -/
  unitsOfNibble : UnitTable
  /-- `WDT_LIMIT` -/
  wdtLimit : Nat
  /-- `CNT_W`, the width of ERR_CNT in bits -/
  cntW : Nat
  /-- `BACKOFF`, the length of the backoff delay; no rule reads it (R133, R315, log 14) -/
  backoff : Nat
  /-- `MASK_VALUE[k]` -/
  maskValue : List Word
  /-- `FILTER_ADDR[k]` -/
  filterAddr : List Nat
  /-- `EXT_FLAG` -/
  extFlag : Bool
  deriving DecidableEq, Repr, Inhabited

/-- A configuration (R6). `N` is the number of slots (R195). -/
structure Config where
  params : Params
  slots : List SlotParams
  deriving DecidableEq, Repr, Inhabited

/-- `ACCEPT_ADDR[0..N-1]`, in slot order. -/
def Config.accept (c : Config) : List Nat := c.slots.map (·.acceptAddr)

/-- The spec's test configuration (95_test_vectors.md section 1), a fixture of the spec's own and no claim about the
device. `State.reset` carries it (DESIGN CHOICE, log 1). `BACKOFF` has no value there; 0 stands, and nothing reads it. -/
def Config.vectors : Config where
  params :=
    { addrUnits := 0x301
      unitsOfNibble := { zero := some .metric, one := .imperial, rest := [] }
      wdtLimit := 3
      cntW := 8
      backoff := 0
      maskValue := [0x03FFE000#32]
      filterAddr := [0x123, 0x245, 0x301]
      extFlag := true }
  slots :=
    [ { variant := .temperature, acceptAddr := 0x123, name := "Temperature", decoder := .leading 1 },
      { variant := .proximityAssist, acceptAddr := 0x245, name := "ProximityAssist", decoder := .leading 2 } ]

/-- The decoder of number `k`, about which nothing is known (R162, I10; free value, log 3). -/
opaque Config.freeDecode : Nat → List Byte → Option Value

/-- The answer to draw number `n` of an attempt when no answer waits at the port (R11, I4; free value, log 4). -/
opaque Config.freeAttempt : Nat → AttemptResult

/-- The answer to draw number `n` of a poll when no answer waits at the port: an identifier and payload bytes, which the
frame port cuts to 8 (R11, I5; free value, log 4). -/
opaque Config.freeFrame : Nat → Option (Word × List Byte)

end Sys2Proof
end

