-- ==== Sys2Proof/Syntax.lean ====
section
/-! DEFINITION. The syntax: one constructor of `Instr` for each row of spec/opcode_table.json (R79, R77), the operation
names of R132, the stimulus pseudo-instructions of R85, and what can be issued to the block (R80). -/

namespace Sys2Proof

/-- One frame of the frame port (R11, R41): a raw identifier and 0..8 payload bytes. Its `len` is the number of the
bytes (R54, D7). -/
structure Frame where
  id : Word
  payload : List Byte
  deriving DecidableEq, Repr, Inhabited

/-- A bring-up operation (R84, R132). -/
inductive Op where
  | busBegin
  | mask (k : Nat)
  | filter (k : Nat)
  | listenOnly
  | displayBegin
  deriving DecidableEq, Repr, Inhabited

/-- A decoded identifier: the triple of R70. -/
structure LogicalId where
  priority : BitVec 3
  target : Addr
  sender : Addr
  deriving DecidableEq, Repr, Inhabited

/-- The class of a frame (R77): UNITS, CHANNEL(M) with M in slot order, or NONE. -/
inductive FrameClass where
  | units
  | channels (m : List Nat)
  | ignored
  deriving DecidableEq, Repr, Inhabited

/-- The operations of the block: the 23 commands of R79, then the three frame classes of R77. A payload operand carries
its own `len`; a slot, an index and a channel handle are natural numbers (R83, R36). -/
inductive Instr where
  | extract (id mask : Word) (shift : BitVec 5)
  | pack (value mask : Word) (shift : BitVec 5)
  | decodeId (id : Word)
  | encodeId (priority target sender : Word)
  | classify (id : Word)
  | countError
  | clearErrors
  | guardedAttempt (op : Op)
  | initStep
  | recognize (i : Nat) (target : Addr)
  | processFrame (i : Nat) (target : Addr) (payload : List Byte)
  | shouldRender (i : Nat)
  | canRender (i : Nat)
  | render (i : Nat)
  | setUnits (i : Nat) (units : Units)
  | getName (i : Nat)
  | regGet (index : Nat)
  | regSet (index : Nat) (channel : Nat)
  | poll
  | dispatch (f : Frame)
  | cycle
  | arbitrate
  | step
  | frameUnits (f : Frame)
  | frameChannel (f : Frame)
  | frameIgnored (f : Frame)
  deriving DecidableEq, Repr, Inhabited

/-- A stimulus pseudo-instruction (R85): a STEP with the answer the environment gives to its draw. -/
inductive Stimulus where
  | ok
  | fail
  | wait
  | idle
  | frame (f : Frame)
  | unitsBcast (p s : Word) (n : Byte)
  deriving DecidableEq, Repr, Inhabited

/-- What a test can issue to the block: a command code with its operand fields beside it (R79, R80), a frame handed
straight to the dispatcher, or a stimulus (R85). -/
inductive Issue where
  | command (code : Byte) (operands : List Nat)
  | frame (f : Frame)
  | stimulus (st : Stimulus)
  deriving DecidableEq, Repr, Inhabited

end Sys2Proof
end

