-- ==== Sys2Proof/WellFormed.lean ====
section
/-! DEFINITION. Which terms of the syntax can be spelled: a payload has at most 8 bytes (R76, R83). Every other operand
range of R83 is in the operand's type, or is a check the block makes when it runs the command (BAD_SLOT, R306). -/

namespace Sys2Proof

/-- `MAX_PAYLOAD` (R6). -/
def maxPayload : Nat := 8

/-- A frame of the frame port has 0..8 bytes (R11, D7). -/
def Frame.wf (f : Frame) : Bool := decide (f.payload.length ≤ maxPayload)

/-- An instruction that can be spelled (R83). -/
def Instr.wf : Instr → Bool
  | .extract _ _ _ => true
  | .pack _ _ _ => true
  | .decodeId _ => true
  | .encodeId _ _ _ => true
  | .classify _ => true
  | .countError => true
  | .clearErrors => true
  | .guardedAttempt _ => true
  | .initStep => true
  | .recognize _ _ => true
  | .processFrame _ _ payload => decide (payload.length ≤ maxPayload)
  | .shouldRender _ => true
  | .canRender _ => true
  | .render _ => true
  | .setUnits _ _ => true
  | .getName _ => true
  | .regGet _ => true
  | .regSet _ _ => true
  | .poll => true
  | .dispatch f => f.wf
  | .cycle => true
  | .arbitrate => true
  | .step => true
  | .frameUnits f => f.wf
  | .frameChannel f => f.wf
  | .frameIgnored f => f.wf

/-- A stimulus that can be spelled (R85). -/
def Stimulus.wf : Stimulus → Bool
  | .ok => true
  | .fail => true
  | .wait => true
  | .idle => true
  | .frame f => f.wf
  | .unitsBcast _ _ _ => true

end Sys2Proof
end

