-- ==== Sys2Proof/Decode.lean ====
section
/-! DEFINITION. The two decoders of the block and their encoder. First the frame codec and the classification map over
the 32-bit identifier (R70, R77, R100 to R104); then the command decoder over the 8-bit code with its operand fields
beside it (R79, R81, R83); then the encoder of both, and the text of R84. -/

namespace Sys2Proof

/-! ## Frame codec -/

/-- `PRIO_MASK` (R6). -/
def prioMask : Word := 0x1C000000#32
/-- `TGT_MASK` (R6). -/
def tgtMask : Word := 0x03FFE000#32
/-- `SND_MASK` (R6). -/
def sndMask : Word := 0x00001FFF#32
/-- `PRIO_SHIFT` (R6). -/
def prioShift : BitVec 5 := 26#5
/-- `TGT_SHIFT` (R6). -/
def tgtShift : BitVec 5 := 13#5
/-- `SND_SHIFT` (R6). -/
def sndShift : BitVec 5 := 0#5

/-- EXTRACT (R100): `(id & mask) >> shift`, a logical shift. -/
def extractField (id mask : Word) (shift : BitVec 5) : Word := (id &&& mask) >>> shift.toNat

/-- PACK (R101): `((value << shift) mod 2^32) & mask`. -/
def packField (value mask : Word) (shift : BitVec 5) : Word := (value <<< shift.toNat) &&& mask

/-- DECODE_ID (R102). -/
def decodeIdent (id : Word) : LogicalId where
  priority := (extractField id prioMask prioShift).setWidth 3
  target := (extractField id tgtMask tgtShift).setWidth 13
  sender := (extractField id sndMask sndShift).setWidth 13

/-- ENCODE_ID (R103). -/
def encodeIdent (p t s : Word) : Word :=
  packField p prioMask prioShift ||| packField t tgtMask tgtShift ||| packField s sndMask sndShift

/-- ENCODE_ID of a decoded triple, each field zero-extended to 32 bits (R72, R107). -/
def encodeTriple (x : LogicalId) : Word :=
  encodeIdent (x.priority.setWidth 32) (x.target.setWidth 32) (x.sender.setWidth 32)

/-- The set M of R77: the slots whose accepted address is `t`, in slot order. -/
def matchSlots (accept : List Nat) (t : Addr) : List Nat :=
  (List.range accept.length).filter fun i => accept[i]? == some t.toNat

/-- CLASSIFY (R104): the unit test comes first. -/
def classOf (cfg : Config) (id : Word) : FrameClass :=
  let t := (decodeIdent id).target
  if t.toNat = cfg.params.addrUnits then .units
  else if matchSlots cfg.accept t = [] then .ignored
  else .channels (matchSlots cfg.accept t)

/-- The row of the opcode table a frame belongs to: FRAME_UNITS, FRAME_CHANNEL or FRAME_IGNORED (R77). -/
def frameRow (cfg : Config) (f : Frame) : Instr :=
  match classOf cfg f.id with
  | .units => .frameUnits f
  | .channels _ => .frameChannel f
  | .ignored => .frameIgnored f

/-! ## Command decoder -/

/-- The names of the 23 commands, in the order of R79's table. -/
inductive Opcode where
  | extract | pack | decodeId | encodeId | classify
  | countError | clearErrors | guardedAttempt | initStep
  | recognize | processFrame | shouldRender | canRender | render | setUnits | getName
  | regGet | regSet
  | poll | dispatch | cycle | arbitrate | step
  deriving DecidableEq, Repr

/-- R79's table: each command's 8-bit code. -/
def opcodeTable : List (Byte × Opcode) :=
  [ (0x01, .extract), (0x02, .pack), (0x03, .decodeId), (0x04, .encodeId), (0x05, .classify),
    (0x10, .countError), (0x11, .clearErrors), (0x12, .guardedAttempt), (0x13, .initStep),
    (0x20, .recognize), (0x21, .processFrame), (0x22, .shouldRender), (0x23, .canRender),
    (0x24, .render), (0x25, .setUnits), (0x26, .getName),
    (0x30, .regGet), (0x31, .regSet),
    (0x40, .poll), (0x41, .dispatch), (0x42, .cycle),
    (0x50, .arbitrate), (0x60, .step) ]

/-- The command a code spells, if any: every other code of 0x00..0xFF is reserved (R81). -/
def opcodeOf (code : Byte) : Option Opcode := (opcodeTable.find? fun r => r.1 == code).map (·.2)

/-- The family a code belongs to: its bits [7:4] (R79). -/
def codeFamily (code : Byte) : BitVec 4 := code.extractLsb' 4 4

/-- Why the command decoder refuses. -/
inductive DecodeError where
  /-- the code is in no row of R79's table: UNKNOWN_OP (R81) -/
  | unknownOp (code : Byte)
  /-- the operand fields beside the code cannot be spelled: one is too wide for its type, or there are too many
  (R83, log 6) -/
  | badOperands (code : Byte)
  /-- a frame or a stimulus with a payload of more than 8 bytes, which cannot be spelled (R76, D7, log 6) -/
  | badFrame
  deriving DecidableEq, Repr

/-- An operand field of `w` bits holds a number below `2^w` (R83). -/
def fieldOf (w n : Nat) : Option (BitVec w) := if n < 2 ^ w then some (BitVec.ofNat w n) else none

/-- Operand field `k`; a field that is not given is 0 (DESIGN CHOICE, log 6). -/
def operand (ops : List Nat) (k : Nat) : Nat := ops.getD k 0

/-- Exactly `len` payload bytes from the fields that are left. -/
def takeBytes : Nat → List Nat → Option (List Byte)
  | 0, [] => some []
  | 0, _ :: _ => none
  | n + 1, [] => (takeBytes n []).map (0#8 :: ·)
  | n + 1, b :: bs => (fieldOf 8 b).bind fun x => (takeBytes n bs).map (x :: ·)

/-- A `len` field in 0..8 and the bytes after it (R83). -/
def payloadOf (len : Nat) (bytes : List Nat) : Option (List Byte) :=
  if len ≤ maxPayload then takeBytes len bytes else none

/-- The operation operand of GUARDED_ATTEMPT as two fields, a number 0..4 in the order of R132's table and a slot number,
which is 0 where the operation has none (DESIGN CHOICE, log 6). -/
def opOf (tag k : Nat) : Option Op :=
  match tag with
  | 0 => if k = 0 then some .busBegin else none
  | 1 => some (.mask k)
  | 2 => some (.filter k)
  | 3 => if k = 0 then some .listenOnly else none
  | 4 => if k = 0 then some .displayBegin else none
  | _ => none

/-- The unit bit of SET_UNITS: 0 Metric, 1 Imperial (R39). -/
def unitsOf (n : Nat) : Option Units :=
  match n with
  | 0 => some .metric
  | 1 => some .imperial
  | _ => none

/-- At most `n` operand fields stand beside the code. -/
def upTo (n : Nat) (ops : List Nat) (r : Option Instr) : Option Instr := if ops.length ≤ n then r else none

/-- The operand fields of each command, in the order of R79's table. -/
def decodeOperands (op : Opcode) (ops : List Nat) : Option Instr :=
  match op with
  | .extract => upTo 3 ops <|
      (fieldOf 32 (operand ops 0)).bind fun id => (fieldOf 32 (operand ops 1)).bind fun m =>
      (fieldOf 5 (operand ops 2)).map fun sh => .extract id m sh
  | .pack => upTo 3 ops <|
      (fieldOf 32 (operand ops 0)).bind fun v => (fieldOf 32 (operand ops 1)).bind fun m =>
      (fieldOf 5 (operand ops 2)).map fun sh => .pack v m sh
  | .decodeId => upTo 1 ops <| (fieldOf 32 (operand ops 0)).map .decodeId
  | .encodeId => upTo 3 ops <|
      (fieldOf 32 (operand ops 0)).bind fun p => (fieldOf 32 (operand ops 1)).bind fun t =>
      (fieldOf 32 (operand ops 2)).map fun s => .encodeId p t s
  | .classify => upTo 1 ops <| (fieldOf 32 (operand ops 0)).map .classify
  | .countError => upTo 0 ops <| some .countError
  | .clearErrors => upTo 0 ops <| some .clearErrors
  | .guardedAttempt => upTo 2 ops <| (opOf (operand ops 0) (operand ops 1)).map .guardedAttempt
  | .initStep => upTo 0 ops <| some .initStep
  | .recognize => upTo 2 ops <| (fieldOf 13 (operand ops 1)).map fun t => .recognize (operand ops 0) t
  | .processFrame =>
      (fieldOf 13 (operand ops 1)).bind fun t =>
      (payloadOf (operand ops 2) (ops.drop 3)).map fun p => .processFrame (operand ops 0) t p
  | .shouldRender => upTo 1 ops <| some (.shouldRender (operand ops 0))
  | .canRender => upTo 1 ops <| some (.canRender (operand ops 0))
  | .render => upTo 1 ops <| some (.render (operand ops 0))
  | .setUnits => upTo 2 ops <| (unitsOf (operand ops 1)).map fun u => .setUnits (operand ops 0) u
  | .getName => upTo 1 ops <| some (.getName (operand ops 0))
  | .regGet => upTo 1 ops <| some (.regGet (operand ops 0))
  | .regSet => upTo 2 ops <| some (.regSet (operand ops 0) (operand ops 1))
  | .poll => upTo 0 ops <| some .poll
  | .dispatch =>
      (fieldOf 32 (operand ops 0)).bind fun id =>
      (payloadOf (operand ops 1) (ops.drop 2)).map fun p => .dispatch { id := id, payload := p }
  | .cycle => upTo 0 ops <| some .cycle
  | .arbitrate => upTo 0 ops <| some .arbitrate
  | .step => upTo 0 ops <| some .step

/-- The command decoder (R79, R81): total on every code and every list of operand fields. -/
def decodeCommand (code : Byte) (ops : List Nat) : Except DecodeError Instr :=
  match opcodeOf code with
  | none => .error (.unknownOp code)
  | some op =>
    match decodeOperands op ops with
    | none => .error (.badOperands code)
    | some i => .ok i

/-- What an issue stands for. A stimulus is a STEP whose answer the environment supplies (R85). A frame of more than 8
bytes cannot be expressed (D7, I24): the decoder refuses it (DESIGN CHOICE, log 6). -/
def decodeIssue (cfg : Config) : Issue → Except DecodeError Instr
  | .command code ops => decodeCommand code ops
  | .frame f => if f.wf then .ok (frameRow cfg f) else .error .badFrame
  | .stimulus st => if st.wf then .ok .step else .error .badFrame

/-! ## Encoder -/

/-- The bit of a unit preference (R39). -/
def unitsBit : Units → Nat
  | .metric => 0
  | .imperial => 1

/-- The two fields of a bring-up operation. -/
def opFields : Op → List Nat
  | .busBegin => [0, 0]
  | .mask k => [1, k]
  | .filter k => [2, k]
  | .listenOnly => [3, 0]
  | .displayBegin => [4, 0]

/-- The `len` field and the bytes of a payload. -/
def payloadFields (p : List Byte) : List Nat := p.length :: p.map (·.toNat)

/-- The issue that spells an instruction: the code of R79 with its operand fields, or the frame itself. -/
def encode : Instr → Issue
  | .extract id m sh => .command 0x01 [id.toNat, m.toNat, sh.toNat]
  | .pack v m sh => .command 0x02 [v.toNat, m.toNat, sh.toNat]
  | .decodeId id => .command 0x03 [id.toNat]
  | .encodeId p t s => .command 0x04 [p.toNat, t.toNat, s.toNat]
  | .classify id => .command 0x05 [id.toNat]
  | .countError => .command 0x10 []
  | .clearErrors => .command 0x11 []
  | .guardedAttempt op => .command 0x12 (opFields op)
  | .initStep => .command 0x13 []
  | .recognize i t => .command 0x20 [i, t.toNat]
  | .processFrame i t p => .command 0x21 (i :: t.toNat :: payloadFields p)
  | .shouldRender i => .command 0x22 [i]
  | .canRender i => .command 0x23 [i]
  | .render i => .command 0x24 [i]
  | .setUnits i u => .command 0x25 [i, unitsBit u]
  | .getName i => .command 0x26 [i]
  | .regGet n => .command 0x30 [n]
  | .regSet n c => .command 0x31 [n, c]
  | .poll => .command 0x40 []
  | .dispatch f => .command 0x41 (f.id.toNat :: payloadFields f.payload)
  | .cycle => .command 0x42 []
  | .arbitrate => .command 0x50 []
  | .step => .command 0x60 []
  | .frameUnits f => .frame f
  | .frameChannel f => .frame f
  | .frameIgnored f => .frame f

/-! ## Table words -/

/-- The issue that lays out a word of the opcode table. A row of up to 8 bits is a command code whose operand fields are
all 0; a row of up to 32 bits is an identifier with no payload byte (log 15). -/
def tableIssue (nbits w : Nat) : Option Issue :=
  if nbits ≤ 8 then some (.command (BitVec.ofNat 8 w) [])
  else if nbits ≤ 32 then some (.frame { id := BitVec.ofNat 32 w, payload := [] })
  else none

/-- The instruction the decoder reads from a table word; the class of an identifier is that of the configuration
`State.reset` carries (log 15). -/
def decodeTableWord (nbits w : Nat) : Option Instr :=
  match tableIssue nbits w with
  | none => none
  | some it =>
    match decodeIssue Config.vectors it with
    | .ok i => some i
    | .error _ => none

/-! ## Text (R84) -/

/-- A list of operands, separated by commas. -/
def commaList (xs : List String) : String := ", ".intercalate xs

/-- A `len` and its bytes. -/
def payloadText (p : List Byte) : String :=
  commaList [toString p.length, "[" ++ commaList (p.map fun b => toString b.toNat) ++ "]"]

/-- The text of a bring-up operation (R84, R132). -/
def opText : Op → String
  | .busBegin => "BUS_BEGIN"
  | .mask k => "MASK " ++ toString k
  | .filter k => "FILTER " ++ toString k
  | .listenOnly => "LISTEN_ONLY"
  | .displayBegin => "DISPLAY_BEGIN"

/-- The text of a unit preference (R84). -/
def unitsText : Units → String
  | .metric => "METRIC"
  | .imperial => "IMPERIAL"

/-- One command per line: its mnemonic, then its operands separated by commas, numbers in decimal (R84). A frame is
written as R85 writes it. -/
def instrText : Instr → String
  | .extract id m sh => "EXTRACT " ++ commaList [toString id.toNat, toString m.toNat, toString sh.toNat]
  | .pack v m sh => "PACK " ++ commaList [toString v.toNat, toString m.toNat, toString sh.toNat]
  | .decodeId id => "DECODE_ID " ++ toString id.toNat
  | .encodeId p t s => "ENCODE_ID " ++ commaList [toString p.toNat, toString t.toNat, toString s.toNat]
  | .classify id => "CLASSIFY " ++ toString id.toNat
  | .countError => "COUNT_ERROR"
  | .clearErrors => "CLEAR_ERRORS"
  | .guardedAttempt op => "GUARDED_ATTEMPT " ++ opText op
  | .initStep => "INIT_STEP"
  | .recognize i t => "RECOGNIZE " ++ commaList [toString i, toString t.toNat]
  | .processFrame i t p => "PROCESS_FRAME " ++ commaList [toString i, toString t.toNat, payloadText p]
  | .shouldRender i => "SHOULD_RENDER " ++ toString i
  | .canRender i => "CAN_RENDER " ++ toString i
  | .render i => "RENDER " ++ toString i
  | .setUnits i u => "SET_UNITS " ++ commaList [toString i, unitsText u]
  | .getName i => "GET_NAME " ++ toString i
  | .regGet n => "REG_GET " ++ toString n
  | .regSet n c => "REG_SET " ++ commaList [toString n, toString c]
  | .poll => "POLL"
  | .dispatch f => "DISPATCH " ++ commaList [toString f.id.toNat, payloadText f.payload]
  | .cycle => "CYCLE"
  | .arbitrate => "ARBITRATE"
  | .step => "STEP"
  | .frameUnits f => "FRAME " ++ commaList [toString f.id.toNat, payloadText f.payload]
  | .frameChannel f => "FRAME " ++ commaList [toString f.id.toNat, payloadText f.payload]
  | .frameIgnored f => "FRAME " ++ commaList [toString f.id.toNat, payloadText f.payload]

end Sys2Proof
end

