-- ==== Sys2Proof/Machine/State.lean ====
section
/-! DEFINITION. The state of the block as plain data (R20), the codes its FAULT and REFUSED registers hold (R301), the
events it emits (R40), the reasons a step can stop, and the state after reset (R43). -/

namespace Sys2Proof.Machine

/-! ## The sequencer (R21, R22) -/

/-- An initialisation phase (R22). -/
inductive Phase where
  | busBegin
  | mask (k : Nat)
  | filter (k : Nat)
  | listenOnly
  | displayBegin
  deriving DecidableEq, Repr, Inhabited

/-- The half of a phase the sequencer is in (R21). -/
inductive Sub where
  | attempt
  | backoff
  deriving DecidableEq, Repr, Inhabited

/-- `MODE`, which plays the role of a program counter (R21). -/
inductive Mode where
  | init (ph : Phase) (sub : Sub)
  | loop
  | reset
  deriving DecidableEq, Repr, Inhabited

/-- `WDT_STATE`: RUNNING is 0, RESET is 1 (R27). -/
inductive WdtState where
  | running
  | reset
  deriving DecidableEq, Repr, Inhabited

/-! ## The slots (R31, R32, R36) -/

/-- Slot i: the constants of R32, the channel state of R31 and the registry entry of R36. -/
structure Slot where
  /-- `ACCEPT_ADDR[i]`, `VARIANT[i]`, `NAME[i]`, `DECODE[i]` -/
  const : SlotParams
  /-- `HAS_DATA[i]` -/
  hasData : Bool
  /-- `DIRTY[i]` -/
  dirty : Bool
  /-- `VALUE[i]` -/
  value : Value
  /-- `UNITS[i]` -/
  units : Units
  /-- `REG[i]`: the channel handle at the slot, or none while it is not set (R191, log 9) -/
  reg : Option Nat
  deriving DecidableEq, Repr, Inhabited

/-! ## Events (R40) -/

/-- The collaborator call an `Attempt` event stands for, with its arguments (R132). The names and arguments of the two
begin calls are not in the source. An argument is none only for a slot number the configuration lacks (log 12). -/
inductive Call where
  | busBegin
  | configureFilter (k : Nat) (mask : Option Word) (ext : Bool)
  | configureReceiveFilter (k : Nat) (value : Option Word) (ext : Bool)
  | setListenOnlyMode
  | displayBegin
  deriving DecidableEq, Repr, Inhabited

/-- One element of the output stream (R40). -/
inductive Event where
  | attempt (op : Op) (call : Call)
  | backoff
  | hwReset
  | render (i : Nat) (value : Value) (units : Units)
  | clear
  | saveUnits (u : Units)
  deriving DecidableEq, Repr, Inhabited

/-! ## FAULT and REFUSED (R301) -/

/-- What the register FAULT can hold (F1). -/
inductive FaultCode where
  /-- F1: RENDER on a slot with HAS_DATA = 0; the slot is recorded (R303) -/
  | renderWithoutData (i : Nat)
  deriving DecidableEq, Repr, Inhabited

/-- The checks of R7 and R193, in their order. -/
inductive ConfigCheck where
  /-- `WDT_LIMIT >= 1` -/
  | limitZero
  /-- `2^CNT_W > WDT_LIMIT` -/
  | counterTooNarrow
  /-- an `ACCEPT_ADDR[i]` below 2^13 -/
  | acceptAddrTooWide
  /-- `ADDR_UNITS` below 2^13 -/
  | addrUnitsTooWide
  /-- a `FILTER_ADDR[k]` below 2^13 -/
  | filterAddrTooWide
  /-- every slot is set -/
  | slotUnset
  /-- no channel is set at two slots -/
  | channelTwice
  deriving DecidableEq, Repr, Inhabited

/-- What the register REFUSED can hold (X1 to X7). -/
inductive RefusalCode where
  /-- X1, with the failing check (R305) -/
  | configInvalid (check : ConfigCheck)
  /-- X2 (R304) -/
  | regSetAfterStart (index : Nat)
  /-- X3 (R304) -/
  | regSetOutOfRange (index : Nat)
  /-- X4 (R304) -/
  | regSetTwice (index : Nat)
  /-- X5, with the code (R306) -/
  | unknownOp (code : Byte)
  /-- X6, with the slot (R306) -/
  | badSlot (i : Nat)
  /-- X7, with MODE (R306) -/
  | wrongMode (mode : Mode)
  deriving DecidableEq, Repr, Inhabited

/-! ## Results -/

/-- The result of a command that returns one (the result column of R79). -/
inductive Result where
  | word (w : Word)
  | ident (x : LogicalId)
  | frameClass (c : FrameClass)
  | bool (b : Bool)
  | name (n : String)
  /-- REG_GET: none out of range, else what the slot's REG holds (R190) -/
  | lookup (r : Option (Option Nat))
  /-- POLL: a frame or none (R202) -/
  | polled (f : Option Frame)
  deriving DecidableEq, Repr, Inhabited

/-! ## The state -/

/-- The whole state of the block (R20), with the configuration it runs under (R6, read-only, log 1), the answers waiting
at its two input ports (R41, log 4) and what has been issued to it (R80, log 6). -/
structure State where
  /-- the parameters of R6 that belong to no slot; read-only -/
  params : Params
  /-- slots 0..N-1, in priority order (R36, R194): S4 to S8 -/
  slots : List Slot
  /-- S0 -/
  mode : Mode
  /-- S1: `ERR_CNT` (log 7) -/
  errCnt : Nat
  /-- S2 -/
  wdtState : WdtState
  /-- S3: `LAST` -/
  last : Option Nat
  /-- S9: `REG_LOCKED` -/
  regLocked : Bool
  /-- S10: `FAULT` -/
  fault : Option FaultCode
  /-- S11: `REFUSED` -/
  refused : Option RefusalCode
  /-- the output event stream, oldest first (R40) -/
  events : List Event
  /-- port attempt_result: the answers waiting, next first (R41) -/
  attemptIn : List AttemptResult
  /-- port frame: the poll answers waiting, next first (R41) -/
  frameIn : List (Option Frame)
  /-- the model's own: how many free draws have been taken (log 4) -/
  draws : Nat
  /-- the model's own: the value the last value-returning command returned (log 5) -/
  ret : Option Result
  /-- the model's own: what has been issued and not yet run, next first (log 6) -/
  issued : List Issue
  deriving DecidableEq, Repr, Inhabited

/-- The reasons the machine stops: the three states that have no further step (R123, R205, R308 check 1). All are safe:
the spec gives such a state no step, and the model gives it none. -/
inductive Fault where
  /-- raised by every command in a state whose FAULT register is set (R42); safe -/
  | noStepAfterFault (f : FaultCode)
  /-- raised by every command in a state whose REFUSED register is set (R42); safe -/
  | noStepAfterRefusal (r : RefusalCode)
  /-- raised by every command in MODE = RESET (R123); safe -/
  | noStepInReset
  deriving DecidableEq, Repr, Inhabited

/-- The reasons the model has no meaning. A refusal of the spec (R301, X1 to X7) is none of these: it is a next state
whose REFUSED register holds the code. -/
inductive Refusal where
  /-- raised by an arm of `exec` whose instruction has no meaning yet; safe. No arm raises it -/
  | notModelled (mnemonic : String)
  /-- raised by the fetch when the operand fields beside a code cannot be spelled (R83: typed fields; log 6), and by
  GUARDED_ATTEMPT on a MASK k or FILTER k that is no operation of R132 under the configuration (log 12); safe -/
  | malformedOperands (code : Byte)
  /-- raised by the fetch on an issued frame or stimulus with a payload of more than 8 bytes (D7); safe (log 6) -/
  | malformedFrame
  deriving DecidableEq, Repr, Inhabited

/-! ## Reset (R43, R400, R402) -/

/-- A slot when its channel has been constructed (R402, step 3) and its registry entry is not yet set. `VALUE` is
unspecified in R43; the empty byte string stands (DESIGN CHOICE, log 10). -/
def Slot.constructed (u : Units) (c : SlotParams) : Slot where
  const := c
  hasData := false
  dirty := false
  value := []
  units := u
  reg := none

/-- The block after steps 1 to 3 of R402, before its registry is assembled. -/
def State.beforeAssembly (cfg : Config) (u : Units) : State where
  params := cfg.params
  slots := cfg.slots.map (Slot.constructed u)
  mode := .init .busBegin .attempt
  errCnt := 0
  wdtState := .running
  last := none
  regLocked := false
  fault := none
  refused := none
  events := []
  attemptIn := []
  frameIn := []
  draws := 0
  ret := none
  issued := []

/-- The state after reset under a configuration and an initial unit preference (R43): the registry is assembled, with
channel i at slot i (R36), and no step has been taken (log 9). -/
def State.resetOf (cfg : Config) (u : Units) : State :=
  { State.beforeAssembly cfg u with
    slots := (cfg.slots.map (Slot.constructed u)).mapIdx fun i c => { c with reg := some i } }

/-- The state after reset: R43 under the spec's test configuration, with init_units Metric (DESIGN CHOICE, log 1). -/
def State.reset : State := State.resetOf Config.vectors .metric

end Sys2Proof.Machine
end

