-- ==== Sys2Proof/Machine/Ops.lean ====
section
/-! DEFINITION. The named operations every meaning goes through: who may take a step (R308), emitting an event (R40),
recording a fault or a refusal (R42, R300), taking the terminal reset (R311), writing one slot, the draws (R11), and the
checks of the first step (R7, R193). The block has no return from its trap (R312), so none stands beside it. -/

namespace Sys2Proof.Machine

/-- What a command answers. -/
abbrev Out := Host.Outcome State Fault Refusal

/-! ## Reading the state -/

/-- `N`, the number of slots (R195). -/
def State.n (s : State) : Nat := s.slots.length

/-- The configuration the block runs under (R6). -/
def State.config (s : State) : Config where
  params := s.params
  slots := s.slots.map (·.const)

/-- The output HW_RESET (R29). -/
def State.hwReset (s : State) : Bool := s.wdtState == .reset

/-- The bit of WDT_STATE (R27, R37). -/
def WdtState.bit : WdtState → BitVec 1
  | .running => 0#1
  | .reset => 1#1

/-- The field `valid` of LAST (R37). -/
def State.lastValid (s : State) : Bool := s.last.isSome

/-- Why a state has no further step, if it has none: check 1 of R308 (R42, R123). -/
def State.halted (s : State) : Option Fault :=
  match s.fault, s.refused with
  | some f, _ => some (.noStepAfterFault f)
  | none, some r => some (.noStepAfterRefusal r)
  | none, none => if s.mode = .reset then some .noStepInReset else none

/-- Run a command in a state that has a step (R308 check 1). -/
def guarded (s : State) (k : State → State) : Out :=
  match s.halted with
  | some r => .fault r
  | none => .next (k s)

/-- Stop on an operand the spec gives no spelling, after check 1 of R308. -/
def unspelled (r : Refusal) (s : State) : Out :=
  match s.halted with
  | some h => .fault h
  | none => .refused r

/-! ## Writing the state -/

/-- `emit e` (R11). -/
def State.emit (s : State) (e : Event) : State := { s with events := s.events ++ [e] }

/-- `raise F` (R12): record the fault and nothing else. -/
def State.raise (s : State) (f : FaultCode) : State := { s with fault := some f }

/-- `refuse R` (R12): record the refusal and nothing else. -/
def State.refuse (s : State) (r : RefusalCode) : State := { s with refused := some r }

/-- The value a command returns (log 5). -/
def State.returns (s : State) (r : Result) : State := { s with ret := some r }

/-- Write slot `i`; no other slot changes, and a slot that is not there is not written. -/
def State.modSlot (s : State) (i : Nat) (f : Slot → Slot) : State := { s with slots := s.slots.modify i f }

/-- Run a command on slots 0, 1, ..., N-1 in that order, each exactly once (R13, R192). -/
def State.forSlots (s : State) (f : Nat → State → State) : State := (List.range s.n).foldl (fun t i => f i t) s

/-- Taking the block's one exception, WDT_RESET (R302, R311): WDT_STATE and MODE become RESET and HwReset is emitted.
Nothing is saved, and control goes to no vector. There is no return from it (R312). -/
def State.terminateReset (s : State) : State :=
  { s with wdtState := .reset, mode := .reset, events := s.events ++ [.hwReset] }

/-- The platform's reboot after HwReset (R123, R400): a new run, from the reset state of the same configuration with the
unit preference sampled then. No state of the block survives, and it is no step of the block (log 16). The counter of free
draws is the model's own and goes on, so that the new run's free answers are new ones (R11, log 4). -/
def State.reboot (s : State) (u : Units) : State := { State.resetOf s.config u with draws := s.draws }

/-! ## Draws (R11) -/

/-- `draw_attempt`: the next answer at the port, or a free one (I4, log 4). -/
def State.drawAttempt (s : State) : AttemptResult × State :=
  match s.attemptIn with
  | r :: rest => (r, { s with attemptIn := rest })
  | [] => (Config.freeAttempt s.draws, { s with draws := s.draws + 1 })

/-- The frame port carries 0..8 bytes (R11, R41): of a longer answer, which cannot be expressed (D7, I24), it carries the
first 8 (DESIGN CHOICE, log 4). -/
def carriedFrame (f : Frame) : Frame := { f with payload := f.payload.take maxPayload }

/-- A free answer to a poll. -/
def freePoll (n : Nat) : Option Frame := (Config.freeFrame n).map fun r => { id := r.1, payload := r.2 }

/-- `draw_frame`: the next answer at the port, or a free one (I5), as the port carries it (log 4). -/
def State.drawFrame (s : State) : Option Frame × State :=
  match s.frameIn with
  | r :: rest => (r.map carriedFrame, { s with frameIn := rest })
  | [] => ((freePoll s.draws).map carriedFrame, { s with draws := s.draws + 1 })

/-! ## The checks of the first step -/

/-- An address of 14 bits or more (R7, I25). -/
def tooWide (a : Nat) : Bool := decide (2 ^ 13 ≤ a)

/-- The handles set in the registry. -/
def State.handles (s : State) : List Nat := s.slots.filterMap (·.reg)

/-- The first check of R7 and R193 that fails, if one does. -/
def configCheck (s : State) : Option ConfigCheck :=
  if s.params.wdtLimit = 0 then some .limitZero
  else if 2 ^ s.params.cntW ≤ s.params.wdtLimit then some .counterTooNarrow
  else if s.slots.any (fun c => tooWide c.const.acceptAddr) then some .acceptAddrTooWide
  else if tooWide s.params.addrUnits then some .addrUnitsTooWide
  else if s.params.filterAddr.any tooWide then some .filterAddrTooWide
  else if s.slots.any (fun c => c.reg.isNone) then some .slotUnset
  else if ¬ s.handles.Nodup then some .channelTwice
  else none

/-! ## The codes of R301 -/

/-- The code of a fault (R301). -/
def FaultCode.label : FaultCode → String
  | .renderWithoutData _ => "F1"

/-- The code of a refusal (R301). -/
def RefusalCode.label : RefusalCode → String
  | .configInvalid _ => "X1"
  | .regSetAfterStart _ => "X2"
  | .regSetOutOfRange _ => "X3"
  | .regSetTwice _ => "X4"
  | .unknownOp _ => "X5"
  | .badSlot _ => "X6"
  | .wrongMode _ => "X7"

end Sys2Proof.Machine
end

