-- ==== Sys2Proof/Machine/Operands.lean ====
section
/-! DEFINITION. The operand forms a command reads from the state: the slot operand with its range check (R83), the
identifier and payload fields of a frame (R70, R76), the unit table (R6) and the payload decoder (R162). -/

namespace Sys2Proof.Machine

/-- A slot operand: a channel command on slot i >= N is refused with BAD_SLOT (R83, R306). -/
def State.withSlot (s : State) (i : Nat) (k : Slot → State) : State :=
  match s.slots[i]? with
  | none => s.refuse (.badSlot i)
  | some c => k c

/-- The routed field of a frame's identifier (R70, R74). -/
def frameTarget (f : Frame) : Addr := (decodeIdent f.id).target

/-- The low nibble of payload byte 0, if the frame has a byte (R76). -/
def unitNibble (f : Frame) : Option (BitVec 4) :=
  match f.payload with
  | [] => none
  | b :: _ => some (b.extractLsb' 0 4)

/-- `UNITS_OF_NIBBLE` (R6). -/
def unitsOfNibble (p : Params) (n : BitVec 4) : Option Units :=
  match n.toNat with
  | 0 => p.unitsOfNibble.zero
  | 1 => some p.unitsOfNibble.one
  | k + 2 => p.unitsOfNibble.rest.getD k none

/-- `DECODE[i](len, payload)` (R162): total, pure, and it reads only the bytes of the payload. -/
def runDecoder (d : Decoder) (payload : List Byte) : Option Value :=
  match d with
  | .leading n => if n ≤ payload.length then some (payload.take n) else none
  | .param k => Config.freeDecode k payload

end Sys2Proof.Machine
end

