-- ==== Sys2Proof/Machine/Flags.lean ====
section
/-! DEFINITION. The flags of a slot (R35): who sets and clears HAS_DATA and DIRTY, and the two flags that are computed
and not stored. -/

namespace Sys2Proof.Machine

/-- CAN_RENDER (R167). -/
def Slot.canRender (c : Slot) : Bool := c.hasData

/-- SHOULD_RENDER, computed as written (R166). -/
def Slot.shouldRender (c : Slot) : Bool := c.hasData && c.dirty

/-- Whether a decoded value is a change: the slot had no data, or the value differs (R163). -/
def Slot.changedBy (c : Slot) (v : Value) : Bool := !c.hasData || decide (c.value ≠ v)

/-- A decoded value enters the slot (R161): DIRTY is set on a change and never cleared here. -/
def Slot.take (c : Slot) (v : Value) : Slot :=
  { c with value := v, hasData := true, dirty := c.dirty || c.changedBy v }

/-- PROCESS_FRAME on a slot: a payload its decoder rejects changes nothing (R161, R162). -/
def Slot.process (payload : List Byte) (c : Slot) : Slot :=
  match runDecoder c.const.decoder payload with
  | none => c
  | some v => c.take v

/-- SET_UNITS on a slot: it is marked dirty when it was available, the units unchanged or not (R165). -/
def Slot.withUnits (u : Units) (c : Slot) : Slot := { c with units := u, dirty := c.dirty || c.canRender }

/-- RENDER clears DIRTY (R164). -/
def Slot.clean (c : Slot) : Slot := { c with dirty := false }

/-- RECOGNIZE (R160). -/
def Slot.recognizes (c : Slot) (t : Addr) : Bool := decide (t.toNat = c.const.acceptAddr)

end Sys2Proof.Machine
end

