-- ==== Sys2Proof/Machine/Channel.lean ====
section
/-! DEFINITION. The channel commands (42_channel.md). Each checks its slot operand first (R83). -/

namespace Sys2Proof.Machine

/-- PROCESS_FRAME on slot `i` (R161); the target is not read, dispatch has matched it. -/
def processFrameAt (payload : List Byte) (i : Nat) (s : State) : State := s.modSlot i (Slot.process payload)

/-- SET_UNITS on slot `i` (R165). -/
def setUnitsAt (u : Units) (i : Nat) (s : State) : State := s.modSlot i (Slot.withUnits u)

/-- RENDER on slot `i` (R164): without data it raises RENDER_WITHOUT_DATA (R303). LAST is not written. -/
def renderAt (i : Nat) (s : State) : State :=
  s.withSlot i fun c =>
    if c.hasData then (s.emit (.render i c.value c.units)).modSlot i Slot.clean
    else s.raise (.renderWithoutData i)

/-- RECOGNIZE (R160). -/
def execRecognize (i : Nat) (target : Addr) (s : State) : Out :=
  guarded s fun s => s.withSlot i fun c => s.returns (.bool (c.recognizes target))

/-- PROCESS_FRAME (R161). -/
def execProcessFrame (i : Nat) (_target : Addr) (payload : List Byte) (s : State) : Out :=
  guarded s fun s => s.withSlot i fun _ => processFrameAt payload i s

/-- SHOULD_RENDER (R166). -/
def execShouldRender (i : Nat) (s : State) : Out :=
  guarded s fun s => s.withSlot i fun c => s.returns (.bool c.shouldRender)

/-- CAN_RENDER (R167). -/
def execCanRender (i : Nat) (s : State) : Out :=
  guarded s fun s => s.withSlot i fun c => s.returns (.bool c.canRender)

/-- RENDER (R164). -/
def execRender (i : Nat) (s : State) : Out := guarded s fun s => renderAt i s

/-- SET_UNITS (R165). -/
def execSetUnits (i : Nat) (u : Units) (s : State) : Out :=
  guarded s fun s => s.withSlot i fun _ => setUnitsAt u i s

/-- GET_NAME (R168). -/
def execGetName (i : Nat) (s : State) : Out :=
  guarded s fun s => s.withSlot i fun c => s.returns (.name c.const.name)

end Sys2Proof.Machine
end

