-- ==== Sys2Proof/Machine/Arbiter.lean ====
section
/-! DEFINITION. The display arbitration multiplexer (45_arbitration.md). -/

namespace Sys2Proof.Machine

/-- `first i in 0..N-1 with P(i)` over the slots (R13). -/
def State.firstSlot (s : State) (p : Slot → Bool) : Option Nat := s.slots.findIdx? p

/-- RENDER a slot and record it in LAST (R221, R222). -/
def show_ (i : Nat) (s : State) : State := { renderAt i s with last := some i }

/-- Step 3: clear once, and only what was shown (R223). -/
def clearShown (s : State) : State :=
  match s.last with
  | none => s
  | some _ => { s.emit .clear with last := none }

/-- ARBITRATE (R220): scan 1 for a fresh slot, scan 2 for an available one, then step 3. -/
def arbitrate (s : State) : State :=
  match s.firstSlot Slot.shouldRender with
  | some i => show_ i s
  | none =>
    match s.firstSlot Slot.canRender with
    | some i => if s.last = some i then s else show_ i s
    | none => clearShown s

/-- ARBITRATE (R220). -/
def execArbitrate (s : State) : Out := guarded s arbitrate

end Sys2Proof.Machine
end

