-- ==== Sys2Proof/Machine/Codec.lean ====
section
/-! DEFINITION. The frame codec's commands (40_frame_codec.md): each reads its operands and the configuration, and writes
no register of the block (R100 to R104). -/

namespace Sys2Proof.Machine

/-- EXTRACT (R100). -/
def execExtract (id mask : Word) (shift : BitVec 5) (s : State) : Out :=
  guarded s fun s => s.returns (.word (extractField id mask shift))

/-- PACK (R101). -/
def execPack (value mask : Word) (shift : BitVec 5) (s : State) : Out :=
  guarded s fun s => s.returns (.word (packField value mask shift))

/-- DECODE_ID (R102). -/
def execDecodeId (id : Word) (s : State) : Out :=
  guarded s fun s => s.returns (.ident (decodeIdent id))

/-- ENCODE_ID (R103). -/
def execEncodeId (p t sd : Word) (s : State) : Out :=
  guarded s fun s => s.returns (.word (encodeIdent p t sd))

/-- CLASSIFY (R104). -/
def execClassify (id : Word) (s : State) : Out :=
  guarded s fun s => s.returns (.frameClass (classOf s.config id))

end Sys2Proof.Machine
end

