-- ==== Sys2Proof/Machine/Watchdog.lean ====
section
/-! DEFINITION. The watchdog-guarded initialisation FSM (41_watchdog_init.md): the counter operations, the phases and
their operations, the retry driver and the step-level sequencer. -/

namespace Sys2Proof.Machine

/-! ## Phases (R22, R132) -/

/-- The phases in their order (R22). -/
def phaseList (p : Params) : List Phase :=
  [.busBegin] ++ (List.range p.maskValue.length).map .mask ++ (List.range p.filterAddr.length).map .filter ++
    [.listenOnly, .displayBegin]

/-- The phase after the mask phases: the first filter slot, or listen-only when there is none (R22). -/
def afterMasks (p : Params) : Phase := if p.filterAddr.length = 0 then .listenOnly else .filter 0

/-- `next(ph)` (R22); none is DONE. -/
def nextPhase (p : Params) : Phase → Option Phase
  | .busBegin => some (if p.maskValue.length = 0 then afterMasks p else .mask 0)
  | .mask k => some (if k + 1 < p.maskValue.length then .mask (k + 1) else afterMasks p)
  | .filter k => some (if k + 1 < p.filterAddr.length then .filter (k + 1) else .listenOnly)
  | .listenOnly => some .displayBegin
  | .displayBegin => none

/-- `op(ph)` (R132). -/
def Phase.op : Phase → Op
  | .busBegin => .busBegin
  | .mask k => .mask k
  | .filter k => .filter k
  | .listenOnly => .listenOnly
  | .displayBegin => .displayBegin

/-- The word mask slot k is programmed with (R78). -/
def maskWord (p : Params) (k : Nat) : Option Word := p.maskValue[k]?

/-- The word filter slot k is programmed with: its address in pack form (R78, R410). -/
def filterWord (p : Params) (k : Nat) : Option Word :=
  p.filterAddr[k]?.map fun a => packField (BitVec.ofNat 32 a) tgtMask tgtShift

/-- The collaborator call of a bring-up operation (R132). -/
def callOf (p : Params) : Op → Call
  | .busBegin => .busBegin
  | .mask k => .configureFilter k (maskWord p k) p.extFlag
  | .filter k => .configureReceiveFilter k (filterWord p k) p.extFlag
  | .listenOnly => .setListenOnlyMode
  | .displayBegin => .displayBegin

/-! ## The counter (R120, R121) -/

/-- COUNT_ERROR (R120): the increment never wraps (R26, R86, log 7), and reaching the limit takes the terminal reset. -/
def countError (s : State) : State :=
  let s := { s with errCnt := s.errCnt + 1 }
  if s.params.wdtLimit ≤ s.errCnt then s.terminateReset else s

/-- CLEAR_ERRORS (R121). -/
def clearErrors (s : State) : State := { s with errCnt := 0 }

/-! ## Attempts (R122, R131, R133) -/

/-- Emit `Attempt(op)` and draw its answer (R122, R131). -/
def attemptOnce (op : Op) (s : State) : AttemptResult × State :=
  (s.emit (.attempt op (callOf s.params op))).drawAttempt

/-- The move to the phase after `ph`, or to LOOP after the last (R131, R134). -/
def advance (ph : Phase) (s : State) : State :=
  match nextPhase s.params ph with
  | none => { s with mode := .loop }
  | some nx => { s with mode := .init nx .attempt }

/-- The attempt half of a phase's bring-up (R131): a failure below the limit goes to BACKOFF; at the limit the step ends in
RESET, with no Backoff after it (R127). `onOk` is what follows a success. -/
def attemptHalf (ph : Phase) (onOk : State → State) (s : State) : State :=
  let a := attemptOnce ph.op s
  match a.1 with
  | .ok => onOk a.2
  | .fail =>
    let t := countError a.2
    if t.mode = .reset then t else { t with mode := .init ph .backoff }

/-- ATTEMPT_STEP (R131): a success moves to the next phase. -/
def attemptStep (ph : Phase) (s : State) : State := attemptHalf ph (advance ph) s

/-- BACKOFF_STEP (R133). -/
def backoffStep (ph : Phase) (s : State) : State := { s.emit .backoff with mode := .init ph .attempt }

/-- INIT_STEP (R130): refused with WRONG_MODE outside INIT (R306). -/
def initStep (s : State) : State :=
  match s.mode with
  | .init ph .attempt => attemptStep ph s
  | .init ph .backoff => backoffStep ph s
  | .loop => s.refuse (.wrongMode .loop)
  | .reset => s.refuse (.wrongMode .reset)

/-! ## The retry driver (R122) -/

/-- The phase an operation brings up (R132). -/
def opPhase : Op → Phase
  | .busBegin => .busBegin
  | .mask k => .mask k
  | .filter k => .filter k
  | .listenOnly => .listenOnly
  | .displayBegin => .displayBegin

/-- The operations of R132 are those of the configuration's phases. -/
def opListed (p : Params) (op : Op) : Bool := decide (opPhase op ∈ phaseList p)

/-- MODE is in either half of phase `ph`. -/
def Mode.inPhase (ph : Phase) : Mode → Bool
  | .init p _ => decide (p = ph)
  | .loop => false
  | .reset => false

/-- A driver that has not returned stays at the command port: the next step goes on with it (R122, log 11). -/
def State.goesOn (s : State) (op : Op) : State := { s with issued := encode (.guardedAttempt op) :: s.issued }

/-- One step of the driver. In the operation's own phase it is the init step of R130, whose success moves on (R131); in
any other MODE it is that phase's attempt half, whose success returns and leaves MODE (log 11). -/
def driveOnce (op : Op) (s : State) : State :=
  if s.mode.inPhase (opPhase op) then initStep s else attemptHalf (opPhase op) id s

/-- GUARDED_ATTEMPT (R122), one step of its loop: it takes one draw at most (R309), and goes on at the next step while MODE
is in the operation's phase, that is until a success or the terminal reset. -/
def guardedAttempt (op : Op) (s : State) : State :=
  let t := driveOnce op s
  if t.mode.inPhase (opPhase op) then t.goesOn op else t

/-! ## The commands -/

/-- COUNT_ERROR (R120). -/
def execCountError (s : State) : Out := guarded s countError

/-- CLEAR_ERRORS (R121). -/
def execClearErrors (s : State) : Out := guarded s clearErrors

/-- GUARDED_ATTEMPT (R122). A MASK k or FILTER k of a slot the configuration lacks is no operation of R132 (log 12). -/
def execGuardedAttempt (op : Op) (s : State) : Out :=
  if opListed s.params op then guarded s (guardedAttempt op) else unspelled (.malformedOperands 0x12) s

/-- INIT_STEP (R130). -/
def execInitStep (s : State) : Out := guarded s initStep

end Sys2Proof.Machine
end

