-- ==== Sys2Proof/Machine/Loop.lean ====
section
/-! DEFINITION. The dispatch loop and the top-level step (44_dispatch.md): POLL, DISPATCH, CYCLE, STEP, and the three
frame classes as the branches of DISPATCH. -/

namespace Sys2Proof.Machine

/-- PROCESS_FRAME on every slot of `m`, in slot order (R200). -/
def processSlots (m : List Nat) (payload : List Byte) (s : State) : State :=
  s.forSlots fun i t => if i ∈ m then processFrameAt payload i t else t

/-- UNIT_BROADCAST (R201): ignored without a nibble or with an unmapped one; else every slot takes the units, then
SaveUnits is emitted. -/
def unitBroadcast (f : Frame) (s : State) : State :=
  match unitNibble f with
  | none => s
  | some n =>
    match unitsOfNibble s.params n with
    | none => s
    | some u => (s.forSlots (setUnitsAt u)).emit (.saveUnits u)

/-- DISPATCH (R200). -/
def dispatch (f : Frame) (s : State) : State :=
  match classOf s.config f.id with
  | .units => unitBroadcast f s
  | .channels m => processSlots m f.payload s
  | .ignored => s

/-- CYCLE (R203): dispatch of the polled frame, then arbitration on the state it leaves. -/
def cycle (s : State) : State :=
  let d := s.drawFrame
  match d.1 with
  | none => arbitrate d.2
  | some f => arbitrate (dispatch f d.2)

/-- The part of STEP that MODE selects (R205). -/
def stepMode (s : State) : State :=
  match s.mode with
  | .init _ _ => initStep s
  | .loop => cycle s
  | .reset => s

/-- STEP (R205): the first one checks the configuration and the assembly, and locks the registry (R193, R305). -/
def stepBlock (s : State) : State :=
  if s.regLocked then stepMode s
  else
    match configCheck s with
    | some c => s.refuse (.configInvalid c)
    | none => stepMode { s with regLocked := true }

/-- POLL (R202). -/
def execPoll (s : State) : Out :=
  guarded s fun s => s.drawFrame.2.returns (.polled s.drawFrame.1)

/-- DISPATCH (R200). -/
def execDispatch (f : Frame) (s : State) : Out := guarded s (dispatch f)

/-- CYCLE (R203): refused with WRONG_MODE outside LOOP (R306). -/
def execCycle (s : State) : Out :=
  guarded s fun s => if s.mode = .loop then cycle s else s.refuse (.wrongMode s.mode)

/-- STEP (R205). -/
def execStep (s : State) : Out := guarded s stepBlock

/-- FRAME_UNITS: what the block does with a frame of class UNITS (R77, R201). -/
def execFrameUnits (f : Frame) (s : State) : Out := guarded s (unitBroadcast f)

/-- FRAME_CHANNEL: what the block does with a frame of class CHANNEL(M) (R77, R200). -/
def execFrameChannel (f : Frame) (s : State) : Out :=
  guarded s fun s => processSlots (matchSlots s.config.accept (frameTarget f)) f.payload s

/-- FRAME_IGNORED: a frame of class NONE changes nothing (R77, R104). -/
def execFrameIgnored (_f : Frame) (s : State) : Out := guarded s fun s => s

end Sys2Proof.Machine
end

