-- ==== Sys2Proof/Machine/Registry.lean ====
section
/-! DEFINITION. The channel registry's commands (43_registry.md). -/

namespace Sys2Proof.Machine

/-- REG_SET (R191), its three refusals in the order of R308. -/
def regSet (index channel : Nat) (s : State) : State :=
  if s.regLocked then s.refuse (.regSetAfterStart index)
  else
    match s.slots[index]? with
    | none => s.refuse (.regSetOutOfRange index)
    | some c =>
      if c.reg.isSome then s.refuse (.regSetTwice index)
      else s.modSlot index fun c => { c with reg := some channel }

/-- REG_GET (R190): out of range is an answer, not a refusal. -/
def execRegGet (index : Nat) (s : State) : Out :=
  guarded s fun s => s.returns (.lookup (s.slots[index]?.map (·.reg)))

/-- REG_SET (R191). -/
def execRegSet (index channel : Nat) (s : State) : Out := guarded s (regSet index channel)

end Sys2Proof.Machine
end

