-- ==== Sys2Proof/Machine/Dispatch.lean ====
section
/-! DEFINITION. One arm per constructor of `Instr`: the meaning each instruction has. -/

namespace Sys2Proof.Machine

def exec (i : Instr) (s : State) : Host.Outcome State Fault Refusal :=
  match i with
  | .extract id mask shift => Sys2Proof.Machine.execExtract id mask shift s
  | .pack value mask shift => Sys2Proof.Machine.execPack value mask shift s
  | .decodeId id => Sys2Proof.Machine.execDecodeId id s
  | .encodeId p t sd => Sys2Proof.Machine.execEncodeId p t sd s
  | .classify id => Sys2Proof.Machine.execClassify id s
  | .countError => Sys2Proof.Machine.execCountError s
  | .clearErrors => Sys2Proof.Machine.execClearErrors s
  | .guardedAttempt op => Sys2Proof.Machine.execGuardedAttempt op s
  | .initStep => Sys2Proof.Machine.execInitStep s
  | .recognize k target => Sys2Proof.Machine.execRecognize k target s
  | .processFrame k target payload => Sys2Proof.Machine.execProcessFrame k target payload s
  | .shouldRender k => Sys2Proof.Machine.execShouldRender k s
  | .canRender k => Sys2Proof.Machine.execCanRender k s
  | .render k => Sys2Proof.Machine.execRender k s
  | .setUnits k u => Sys2Proof.Machine.execSetUnits k u s
  | .getName k => Sys2Proof.Machine.execGetName k s
  | .regGet index => Sys2Proof.Machine.execRegGet index s
  | .regSet index channel => Sys2Proof.Machine.execRegSet index channel s
  | .poll => Sys2Proof.Machine.execPoll s
  | .dispatch f => Sys2Proof.Machine.execDispatch f s
  | .cycle => Sys2Proof.Machine.execCycle s
  | .arbitrate => Sys2Proof.Machine.execArbitrate s
  | .step => Sys2Proof.Machine.execStep s
  | .frameUnits f => Sys2Proof.Machine.execFrameUnits f s
  | .frameChannel f => Sys2Proof.Machine.execFrameChannel f s
  | .frameIgnored f => Sys2Proof.Machine.execFrameIgnored f s

end Sys2Proof.Machine
end

