-- ==== Sys2Proof/Machine/Fetch.lean ====
section
/-! DEFINITION. What the next step runs: the next issue at the command port (R80, R85), decoded, or the environment's
STEP when nothing has been issued (R80). -/

namespace Sys2Proof.Machine

/-- What a fetch gives: an instruction and the state it runs in, or the outcome of a step that runs none. -/
inductive Fetched where
  | run (i : Instr) (s : State)
  | stop (o : Out)

/-- The MODE a stimulus belongs to (R85). -/
def stimulusFits (st : Stimulus) (m : Mode) : Bool :=
  match st, m with
  | .ok, .init _ .attempt => true
  | .fail, .init _ .attempt => true
  | .wait, .init _ .backoff => true
  | .idle, .loop => true
  | .frame _, .loop => true
  | .unitsBcast _ _ _, .loop => true
  | _, _ => false

/-- The frame UNITS_BCAST expands to (R85). -/
def broadcastFrame (p : Params) (prio sender : Word) (n : Byte) : Frame where
  id := encodeIdent prio (BitVec.ofNat 32 p.addrUnits) sender
  payload := [n]

/-- Put the answer of a stimulus next at its port (R85). -/
def stimulusAnswer (st : Stimulus) (s : State) : State :=
  match st with
  | .ok => { s with attemptIn := .ok :: s.attemptIn }
  | .fail => { s with attemptIn := .fail :: s.attemptIn }
  | .wait => s
  | .idle => { s with frameIn := none :: s.frameIn }
  | .frame f => { s with frameIn := some f :: s.frameIn }
  | .unitsBcast p sd n => { s with frameIn := some (broadcastFrame s.params p sd n) :: s.frameIn }

/-- The first step's checks come before the stimulus's MODE (R308 checks 2 and 4, log 13). -/
def State.configFails (s : State) : Bool := !s.regLocked && (configCheck s).isSome

/-- A stimulus (R85): STEP with its answer, or WRONG_MODE. A halted state, and a first step that refuses its
configuration, take no answer. -/
def fetchStimulus (st : Stimulus) (s : State) : Fetched :=
  if s.halted.isSome || s.configFails then .run .step s
  else if stimulusFits st s.mode then .run .step (stimulusAnswer st s)
  else .stop (.next (s.refuse (.wrongMode s.mode)))

/-- An issue, taken from the command port: UNKNOWN_OP for a reserved code (R81), a stop for what cannot be spelled (R83,
log 6), both after check 1 of R308; else the instruction it spells. -/
def fetchIssue (it : Issue) (s : State) : Fetched :=
  match decodeIssue s.config it with
  | .error (.unknownOp c) => .stop (guarded s fun s => s.refuse (.unknownOp c))
  | .error (.badOperands c) => .stop (unspelled (.malformedOperands c) s)
  | .error .badFrame => .stop (unspelled .malformedFrame s)
  | .ok i =>
    match it with
    | .stimulus st => fetchStimulus st s
    | .command _ _ => .run i s
    | .frame _ => .run i s

/-- What the next step runs. The issue it takes is consumed. -/
def fetch (s : State) : Fetched :=
  match s.issued with
  | [] => .run .step s
  | it :: rest => fetchIssue it { s with issued := rest }

end Sys2Proof.Machine
end

