-- ==== Sys2Proof/Machine/Step.lean ====
section
/-! DEFINITION. One step of the machine, and how the host places an instruction where the step fetches (log 15). -/

namespace Sys2Proof.Machine

/-- One step: run what the fetch gives (R80, R205). -/
def step (s : State) : Host.Outcome State Fault Refusal :=
  match fetch s with
  | .run i t => exec i t
  | .stop o => o

/-- `s` with a word of the opcode table issued next (log 15). -/
def State.withFetchWord (s : State) (nbits w : Nat) : State :=
  match tableIssue nbits w with
  | none => s
  | some it => { s with issued := it :: s.issued }

end Sys2Proof.Machine
end

