-- ==== Sys2Proof/Machine/Display.lean ====
section
/-! DEFINITION. What the display collaborator draws from a Render event of a Temperature channel (R170, R171). It is
outside the block: no state and no rule of the block reads it (R86). -/

namespace Sys2Proof.Machine

/-- `round` of a fraction, half away from zero (R171). The denominator is positive. -/
def roundHalfAway (num : Int) (den : Nat) : Int :=
  if 0 ≤ num then (2 * num + den) / (2 * den) else -((2 * (-num) + den) / (2 * den))

/-- Twice the Celsius value: `2 * (b/2 - 40)`, exact (R170, R171). -/
def celsiusTwice (b : Byte) : Int := (b.toNat : Int) - 80

/-- The Fahrenheit value `round(1.8 * C) + 32` (R170). -/
def fahrenheit (b : Byte) : Int := roundHalfAway (9 * celsiusTwice b) 10 + 32

/-- What is drawn: Metric shows C, Imperial shows F (R171). -/
inductive Reading where
  | celsiusHalves (n : Int)
  | fahrenheit (n : Int)
  deriving DecidableEq, Repr

/-- The reading of a Temperature value byte under a unit preference (R171). -/
def temperatureReading (b : Byte) : Units → Reading
  | .metric => .celsiusHalves (celsiusTwice b)
  | .imperial => .fahrenheit (fahrenheit b)

end Sys2Proof.Machine
end

