-- ==== Sys2Proof/Safety.lean ====
section
/-! DEFINITION. What counts as a good state and a good run, in the terms the statements use (R300, R26, R27, R33, R126). -/

namespace Sys2Proof.Machine

/-- The state has a step: no fault or refusal is recorded and MODE is not RESET (R205, R308 check 1). -/
abbrev State.Running (s : State) : Prop := s.fault = none ∧ s.refused = none ∧ s.mode ≠ .reset

/-- The configuration and the assembly pass every check of the first step (R7, R193). -/
abbrev State.ConfigOk (s : State) : Prop := configCheck s = none

/-- What holds of every state of a run under a configuration that passes the watchdog's checks of R7. -/
structure State.Inv (s : State) : Prop where
  /-- the watchdog's parameters are legal (R7) -/
  limit_pos : 1 ≤ s.params.wdtLimit
  limit_fits : s.params.wdtLimit < 2 ^ s.params.cntW
  /-- DIRTY implies HAS_DATA (R33) -/
  dirty_has_data : ∀ c ∈ s.slots, c.dirty = true → c.hasData = true
  /-- ERR_CNT stays below the limit until the reset, and is the limit in it (R26, R120) -/
  err_below : s.mode ≠ .reset → s.errCnt < s.params.wdtLimit
  err_at_limit : s.mode = .reset → s.errCnt = s.params.wdtLimit
  /-- WDT_STATE is RESET exactly in MODE RESET (R27) -/
  wdt_mode : s.wdtState = .reset ↔ s.mode = .reset
  /-- HwReset has been emitted once in RESET and never before (R126) -/
  reset_once : s.events.count .hwReset = if s.mode = .reset then 1 else 0
  /-- LAST names a slot that has data (R30, R34, R225) -/
  last_has_data : ∀ i, s.last = some i → ∃ c, s.slots[i]? = some c ∧ c.hasData = true
  /-- a phase of MODE is a phase of the list (R21, R22) -/
  phase_legal : ∀ ph sub, s.mode = .init ph sub → ph ∈ phaseList s.params

/-- The port types hold (R11, D7): every frame waiting at the frame port, every frame of a waiting issue, and the frame a
POLL returned has at most 8 bytes. -/
structure State.PortsOk (s : State) : Prop where
  frames : ∀ r ∈ s.frameIn, ∀ f, r = some f → f.payload.length ≤ 8
  issues : ∀ f, Issue.frame f ∈ s.issued → f.wf = true
  stimuli : ∀ st, Issue.stimulus st ∈ s.issued → st.wf = true
  returned : ∀ f, s.ret = some (.polled (some f)) → f.payload.length ≤ 8

end Sys2Proof.Machine
end

