-- ==== Sys2Proof/Certificates/Slice0/Obligations.lean ====
section
/-! DEFINITION. The statements for the provers. A hypothesis `s.Running` says that the state has a step: no fault or
refusal is recorded and MODE is not RESET (R42, R123). An equation `exec i s = .next {s with …}` gives every field of the
next state, so it is the instruction's frame too. A returned value stands in the model's own field `ret` (log 5). -/

open Sys2Proof Sys2Proof.Machine

namespace Sys2Proof.Claims

/-- A slot after its decoder gave the value `v` (R161, R163). -/
def accepted (c : Slot) (v : Value) : Slot :=
  { c with value := v, hasData := true, dirty := c.dirty || (!c.hasData || decide (c.value ≠ v)) }

/-- A slot after a frame's payload: unchanged where its decoder rejects it (R161, R162). -/
def afterPayload (p : List Byte) (c : Slot) : Slot :=
  match runDecoder c.const.decoder p with
  | none => c
  | some v => accepted c v

/-- The routed field of an identifier: its bits [25:13] as a number (R70). -/
def targetOf (id : Word) : Nat := id.toNat / 2 ^ 13 % 2 ^ 13

/-- One attempt (R131, R11): the Attempt event, then the next answer waiting at the port attempt_result, which is taken; or,
with none waiting, the free answer the draw counter numbers, which advances it (log 4). -/
def drawFor (op : Op) (s : State) : AttemptResult × State :=
  match s.attemptIn with
  | r :: rest => (r, { s with events := s.events ++ [.attempt op (callOf s.params op)], attemptIn := rest })
  | [] =>
    (Config.freeAttempt s.draws,
      { s with events := s.events ++ [.attempt op (callOf s.params op)], draws := s.draws + 1 })

/-- What nibble `n` means (R6): nibble 1 is always mapped. -/
def unitAt (p : Params) (n : Nat) : Option Units :=
  if n = 0 then p.unitsOfNibble.zero
  else if n = 1 then some p.unitsOfNibble.one
  else p.unitsOfNibble.rest.getD (n - 2) none

/-- GUARDED_ATTEMPT of `op` as an issue. -/
def driverIssue (op : Op) : Issue := .command 0x12#8 (opFields op)

/-- The frame UNITS_BCAST p, s, n stands for: ENCODE_ID(p, ADDR_UNITS, s), 1, [n] (R85). -/
def unitsBroadcast (s : State) (p sd : Word) (n : Byte) : Frame :=
  ⟨encodeIdent p (BitVec.ofNat 32 s.params.addrUnits) sd, [n]⟩

/-- How many steps of the block initialisation takes at most from phase number `j` (R135). -/
def initBound (s : State) (j : Nat) (sub : Sub) : Nat :=
  (3 + s.params.maskValue.length + s.params.filterAddr.length - j) + 2 * (s.params.wdtLimit - 1 - s.errCnt) +
    (if sub = .backoff then 1 else 0)

end Sys2Proof.Claims

open Sys2Proof.Claims

/-! ## Frame codec -/

/-- R100, the value: `(id & mask) >> shift`, which never exceeds `mask >> shift`; nothing but the returned value
changes (it stands in `ret`, the model's choice of log 5). -/
def Obligations.ExtractReturnsMaskedShift : Prop :=
  ∀ (id mask : Word) (shift : BitVec 5) (s : State), s.Running →
    exec (.extract id mask shift) s = .next { s with ret := some (.word ((id &&& mask) >>> shift.toNat)) } ∧
    (id &&& mask) >>> shift.toNat ≤ mask >>> shift.toNat

/-- R101 in numbers: `((value << shift) mod 2^32) & mask`. The formula is the spec's own reading (D4); `ret` is the
model's choice (log 5). -/
def Obligations.PackReturnsShiftedMasked : Prop :=
  ∀ (value mask : Word) (shift : BitVec 5) (s : State), s.Running →
    ∃ w : Word, exec (.pack value mask shift) s = .next { s with ret := some (.word w) } ∧
      w.toNat = (value.toNat * 2 ^ shift.toNat % 2 ^ 32) &&& mask.toNat

/-- R102 and the layout of R70: priority is bits [28:26], target bits [25:13], sender bits [12:0] (`ret`: log 5). -/
def Obligations.DecodeIdReturnsFields : Prop :=
  ∀ (id : Word) (s : State), s.Running →
    ∃ x : LogicalId, exec (.decodeId id) s = .next { s with ret := some (.ident x) } ∧
      x.priority.toNat = id.toNat / 2 ^ 26 % 2 ^ 3 ∧ x.target.toNat = id.toNat / 2 ^ 13 % 2 ^ 13 ∧
      x.sender.toNat = id.toNat % 2 ^ 13

/-- R103: each operand truncated to its field and put in its place; bits [31:29] are 0 (`ret`: log 5; the packing is the
spec's own reading, D4). -/
def Obligations.EncodeIdReturnsFieldsInPlace : Prop :=
  ∀ (p t sd : Word) (s : State), s.Running →
    ∃ w : Word, exec (.encodeId p t sd) s = .next { s with ret := some (.word w) } ∧
      w.toNat = p.toNat % 2 ^ 3 * 2 ^ 26 + t.toNat % 2 ^ 13 * 2 ^ 13 + sd.toNat % 2 ^ 13

/-- R104: UNITS first; else the slots that accept the target, in slot order, when there is one; else NONE (`ret`:
log 5). -/
def Obligations.ClassifyFollowsMap : Prop :=
  ∀ (id : Word) (s : State), s.Running →
    (targetOf id = s.params.addrUnits → exec (.classify id) s = .next { s with ret := some (.frameClass .units) }) ∧
    (targetOf id ≠ s.params.addrUnits → (∃ c ∈ s.slots, c.const.acceptAddr = targetOf id) →
      ∃ m : List Nat, exec (.classify id) s = .next { s with ret := some (.frameClass (.channels m)) } ∧
        m.Pairwise (· < ·) ∧
        ∀ i, i ∈ m ↔ ∃ c, s.slots[i]? = some c ∧ c.const.acceptAddr = targetOf id) ∧
    (targetOf id ≠ s.params.addrUnits → (∀ c ∈ s.slots, c.const.acceptAddr ≠ targetOf id) →
      exec (.classify id) s = .next { s with ret := some (.frameClass .ignored) })

/-- R105: the mask round trip for every mask with no bit below the shift, the three field pairs among them, and the
counterexample without the side condition. The side condition is the spec's own reading (D4). -/
def Obligations.MaskRoundTrip : Prop :=
  (∀ (x mask : Word) (shift : BitVec 5), mask.toNat % 2 ^ shift.toNat = 0 →
    packField (extractField x mask shift) mask shift = x &&& mask) ∧
  (∀ x : Word,
    packField (extractField x 0x1C000000#32 26#5) 0x1C000000#32 26#5 = x &&& 0x1C000000#32 ∧
    packField (extractField x 0x03FFE000#32 13#5) 0x03FFE000#32 13#5 = x &&& 0x03FFE000#32 ∧
    packField (extractField x 0x00001FFF#32 0#5) 0x00001FFF#32 0#5 = x &&& 0x00001FFF#32) ∧
  packField (extractField 0xFF#32 0xFF#32 4#5) 0xFF#32 4#5 ≠ (0xFF#32 &&& 0xFF#32)

/-- R106: decoding an encoded triple gives each operand truncated to its field, so it is the triple itself when every
value fits. -/
def Obligations.FieldRoundTrip : Prop :=
  (∀ p t sd : Word, decodeIdent (encodeIdent p t sd) = ⟨p.setWidth 3, t.setWidth 13, sd.setWidth 13⟩) ∧
  ∀ x : LogicalId, decodeIdent (encodeTriple x) = x

/-- R107: encoding a decoded identifier clears bits [31:29] and keeps every other bit. -/
def Obligations.IdentifierRoundTrip : Prop :=
  ∀ id : Word, encodeTriple (decodeIdent id) = id &&& 0x1FFFFFFF#32

/-- R73, R74: what the block does with a frame depends on its identifier through bits [25:13] alone. -/
def Obligations.UnroutedBitsIgnored : Prop :=
  ∀ (f g : Frame) (s : State), f.payload = g.payload →
    (∀ k, 13 ≤ k → k < 26 → f.id.getLsbD k = g.id.getLsbD k) →
    exec (.dispatch f) s = exec (.dispatch g) s

/-! ## Watchdog -/

/-- R120, whole: the code, the increment (where the register of CNT_W bits does not wrap), at the limit the terminal
reset and nothing after it, and from below the limit a counter that never exceeds it and equals it in RESET. -/
def Obligations.CountErrorCountsThenResets : Prop :=
  decodeCommand 0x10#8 [] = .ok .countError ∧
  ∀ s : State, s.Running → s.errCnt + 1 < 2 ^ s.params.cntW →
    (s.errCnt + 1 < s.params.wdtLimit → exec .countError s = .next { s with errCnt := s.errCnt + 1 }) ∧
    (s.params.wdtLimit ≤ s.errCnt + 1 →
      exec .countError s = .next { s with
        errCnt := s.errCnt + 1, wdtState := .reset, mode := .reset, events := s.events ++ [.hwReset] }) ∧
    (s.errCnt < s.params.wdtLimit →
      ∃ t, exec .countError s = .next t ∧ t.errCnt ≤ s.params.wdtLimit ∧
        (t.mode = .reset → t.errCnt = s.params.wdtLimit))

/-- R121, whole: the code, and ERR_CNT becomes 0 and nothing else changes. -/
def Obligations.ClearErrorsZeroes : Prop :=
  decodeCommand 0x11#8 [] = .ok .clearErrors ∧
  ∀ s : State, s.Running → exec .clearErrors s = .next { s with errCnt := 0 }

/-- R122, R127, R309: a step of the driver is a half of R130. In the backoff half of the operation's phase it emits Backoff
and goes back to the attempt half. Else it attempts once: a success in the operation's own phase is INIT_STEP's success, and
in any other MODE returns and leaves MODE; a failure below the limit is counted and goes to the backoff half of that phase;
one that reaches the limit resets with no Backoff. Between its steps the driver stays at the command port (log 6), and it
ends: from a counter below the limit it has left the port within 2 * (WDT_LIMIT - ERR_CNT) steps, having reset or with the
counter still below the limit. An operation whose phase the configuration lacks stops by name. (How a directly issued driver
meets MODE, and the stop, are the model's readings: logs 11 and 12.) -/
def Obligations.GuardedAttemptRetriesUntilSuccessOrReset : Prop :=
  ∀ (op : Op) (s : State), s.Running →
    (opPhase op ∈ phaseList s.params →
      (s.mode = .init (opPhase op) .backoff →
        exec (.guardedAttempt op) s = .next { s with
          mode := .init (opPhase op) .attempt, events := s.events ++ [.backoff],
          issued := driverIssue op :: s.issued }) ∧
      ((drawFor op s).1 = .ok → s.mode = .init (opPhase op) .attempt →
        exec (.guardedAttempt op) s = exec .initStep s) ∧
      ((drawFor op s).1 = .ok → (∀ sub, s.mode ≠ .init (opPhase op) sub) →
        exec (.guardedAttempt op) s = .next (drawFor op s).2) ∧
      ((drawFor op s).1 = .fail → s.mode ≠ .init (opPhase op) .backoff → s.errCnt + 1 < s.params.wdtLimit →
        exec (.guardedAttempt op) s = .next { (drawFor op s).2 with
          errCnt := s.errCnt + 1, mode := .init (opPhase op) .backoff, issued := driverIssue op :: s.issued }) ∧
      ((drawFor op s).1 = .fail → s.mode ≠ .init (opPhase op) .backoff → s.params.wdtLimit ≤ s.errCnt + 1 →
        exec (.guardedAttempt op) s = .next { (drawFor op s).2 with
          errCnt := s.errCnt + 1, wdtState := .reset, mode := .reset,
          events := (drawFor op s).2.events ++ [.hwReset] }) ∧
      ∀ rest, s.issued = driverIssue op :: rest → s.errCnt < s.params.wdtLimit →
        ∃ k t, k ≤ 2 * (s.params.wdtLimit - s.errCnt) ∧ Host.Core.run core k s = .next t ∧ t.issued = rest ∧
          (t.mode = .reset ∨ t.errCnt < s.params.wdtLimit)) ∧
    (opPhase op ∉ phaseList s.params → exec (.guardedAttempt op) s = .refused (.malformedOperands 0x12#8))

/-- R131, the answer OK: the next phase, or LOOP after DISPLAY_BEGIN. The free answer is not fixed by the statement: it
holds for every state whose next answer is OK. -/
def Obligations.InitAttemptSuccessAdvances : Prop :=
  ∀ (ph : Phase) (s : State), s.Running → s.mode = .init ph .attempt → (drawFor ph.op s).1 = .ok →
    (ph = .displayBegin → exec .initStep s = .next { (drawFor ph.op s).2 with mode := .loop }) ∧
    ∀ nx, nextPhase s.params ph = some nx →
      exec .initStep s = .next { (drawFor ph.op s).2 with mode := .init nx .attempt }

/-- R131, the answer FAIL: counted and on to BACKOFF below the limit; the terminal reset at the limit, where the step
ends. -/
def Obligations.InitAttemptFailureCounts : Prop :=
  ∀ (ph : Phase) (s : State), s.Running → s.mode = .init ph .attempt → (drawFor ph.op s).1 = .fail →
    (s.errCnt + 1 < s.params.wdtLimit →
      exec .initStep s = .next { (drawFor ph.op s).2 with errCnt := s.errCnt + 1, mode := .init ph .backoff }) ∧
    (s.params.wdtLimit ≤ s.errCnt + 1 →
      exec .initStep s = .next { (drawFor ph.op s).2 with
        errCnt := s.errCnt + 1, wdtState := .reset, mode := .reset,
        events := (drawFor ph.op s).2.events ++ [.hwReset] })

/-- R133: the backoff half emits Backoff and goes back to the same phase's attempt. -/
def Obligations.BackoffReturnsToAttempt : Prop :=
  ∀ (ph : Phase) (s : State), s.Running → s.mode = .init ph .backoff →
    exec .initStep s = .next { s with mode := .init ph .attempt, events := s.events ++ [.backoff] }

/-- R130, R203, R306: INIT_STEP outside INIT and CYCLE outside LOOP are refused with WRONG_MODE, and nothing else
changes. -/
def Obligations.WrongModeRefused : Prop :=
  ∀ s : State, s.Running →
    (s.mode = .loop → exec .initStep s = .next { s with refused := some (.wrongMode .loop) }) ∧
    ∀ ph sub, s.mode = .init ph sub →
      exec .cycle s = .next { s with refused := some (.wrongMode (.init ph sub)) }

/-- R22, R403: the phases in their order, bus begin, every mask slot, every filter slot, listen-only, display begin, and no
other; `next` is the one after. -/
def Obligations.PhasesRunInOrder : Prop :=
  ∀ p : Params,
    (phaseList p).length = 3 + p.maskValue.length + p.filterAddr.length ∧ (phaseList p).Nodup ∧
    (phaseList p)[0]? = some .busBegin ∧
    (∀ k < p.maskValue.length, (phaseList p)[1 + k]? = some (.mask k)) ∧
    (∀ k < p.filterAddr.length, (phaseList p)[1 + p.maskValue.length + k]? = some (.filter k)) ∧
    (phaseList p)[1 + p.maskValue.length + p.filterAddr.length]? = some .listenOnly ∧
    (phaseList p)[2 + p.maskValue.length + p.filterAddr.length]? = some .displayBegin ∧
    ∀ k ph, (phaseList p)[k]? = some ph → nextPhase p ph = (phaseList p)[k + 1]?

/-- R132, R78: the call each attempt stands for, a filter word being its address shifted to bits [25:13]. -/
def Obligations.AttemptCallArguments : Prop :=
  ∀ p : Params,
    (∀ k w, p.maskValue[k]? = some w → callOf p (.mask k) = .configureFilter k (some w) p.extFlag) ∧
    (∀ k a, p.filterAddr[k]? = some a → a < 2 ^ 13 →
      ∃ w : Word, callOf p (.filter k) = .configureReceiveFilter k (some w) p.extFlag ∧ w.toNat = a * 2 ^ 13) ∧
    callOf p .busBegin = .busBegin ∧ callOf p .listenOnly = .setListenOnlyMode ∧
    callOf p .displayBegin = .displayBegin

/-! ## Channels -/

/-- R160, R166, R167, R168: the four queries of a slot, each changing nothing but the returned value (`ret`: log 5). -/
def Obligations.ChannelQueriesAnswer : Prop :=
  ∀ (i : Nat) (t : Addr) (s : State) (c : Slot), s.Running → s.slots[i]? = some c →
    exec (.recognize i t) s = .next { s with ret := some (.bool (decide (t.toNat = c.const.acceptAddr))) } ∧
    exec (.shouldRender i) s = .next { s with ret := some (.bool (c.hasData && c.dirty)) } ∧
    exec (.canRender i) s = .next { s with ret := some (.bool c.hasData) } ∧
    exec (.getName i) s = .next { s with ret := some (.name c.const.name) }

/-- R161, R163: a payload the decoder rejects changes nothing; a value it gives is stored, HAS_DATA is set, and DIRTY is
set on a first or changed value and otherwise left. That a first value is a change is the spec's own choice (D8). -/
def Obligations.ProcessFrameStoresValue : Prop :=
  ∀ (i : Nat) (t : Addr) (p : List Byte) (s : State) (c : Slot), s.Running → s.slots[i]? = some c →
    (runDecoder c.const.decoder p = none → exec (.processFrame i t p) s = .next s) ∧
    ∀ v, runDecoder c.const.decoder p = some v →
      exec (.processFrame i t p) s = .next { s with slots := s.slots.set i { c with
        value := v, hasData := true, dirty := c.dirty || (!c.hasData || decide (c.value ≠ v)) } }

/-- R164: RENDER on a slot with data emits its value and units and clears its DIRTY; LAST is not written. -/
def Obligations.RenderShowsAndCleans : Prop :=
  ∀ (i : Nat) (s : State) (c : Slot), s.Running → s.slots[i]? = some c → c.hasData = true →
    exec (.render i) s = .next { s with
      slots := s.slots.set i { c with dirty := false }, events := s.events ++ [.render i c.value c.units] }

/-- R303: RENDER on a slot without data records RENDER_WITHOUT_DATA with the slot, emits nothing and changes nothing
else (that undefined behaviour is a fault is the spec's own choice, D33). -/
def Obligations.RenderWithoutDataFaults : Prop :=
  ∀ (i : Nat) (s : State) (c : Slot), s.Running → s.slots[i]? = some c → c.hasData = false →
    exec (.render i) s = .next { s with fault := some (.renderWithoutData i) }

/-- R165: the slot takes the units, and is marked dirty when it had data, the units unchanged or not (D11). -/
def Obligations.SetUnitsMarksAvailable : Prop :=
  ∀ (i : Nat) (u : Units) (s : State) (c : Slot), s.Running → s.slots[i]? = some c →
    exec (.setUnits i u) s = .next { s with
      slots := s.slots.set i { c with units := u, dirty := c.dirty || c.hasData } }

/-- R83, R306, R308: every channel command on a slot at or beyond N is refused with BAD_SLOT, RENDER before its data
check. -/
def Obligations.BadSlotRefused : Prop :=
  ∀ (i : Nat) (t : Addr) (p : List Byte) (u : Units) (s : State), s.Running → s.slots.length ≤ i →
    ∀ instr ∈ [Instr.recognize i t, .processFrame i t p, .shouldRender i, .canRender i, .render i, .setUnits i u,
        .getName i],
      exec instr s = .next { s with refused := some (.badSlot i) }

/-! ## Registry -/

/-- R190: REG_GET answers what the slot's entry holds, and none out of range (`ret`: log 5). -/
def Obligations.RegGetBoundsChecked : Prop :=
  ∀ (n : Nat) (s : State), s.Running →
    (∀ c, s.slots[n]? = some c → exec (.regGet n) s = .next { s with ret := some (.lookup (some c.reg)) }) ∧
    (s.slots.length ≤ n → exec (.regGet n) s = .next { s with ret := some (.lookup none) })

/-- R191: before the first step an unset slot is set to the channel, and nothing else changes. -/
def Obligations.RegSetWritesUnsetSlot : Prop :=
  ∀ (n ch : Nat) (s : State) (c : Slot), s.Running → s.regLocked = false → s.slots[n]? = some c → c.reg = none →
    exec (.regSet n ch) s = .next { s with slots := s.slots.set n { c with reg := some ch } }

/-- R191, R304, R308: REG_SET after the start, then out of range, then on a set slot, is refused with its code. -/
def Obligations.RegSetRefusals : Prop :=
  ∀ (n ch : Nat) (s : State), s.Running →
    (s.regLocked = true → exec (.regSet n ch) s = .next { s with refused := some (.regSetAfterStart n) }) ∧
    (s.regLocked = false → s.slots.length ≤ n →
      exec (.regSet n ch) s = .next { s with refused := some (.regSetOutOfRange n) }) ∧
    ∀ c, s.regLocked = false → s.slots[n]? = some c → c.reg ≠ none →
      exec (.regSet n ch) s = .next { s with refused := some (.regSetTwice n) }

/-! ## Loop -/

/-- R202, R11: POLL takes the answer waiting at the port and returns it, and where none waits returns some frame of at most 8
bytes or none; no other state of the block changes. The port's queue, the draw counter, the first 8 bytes of an answer that is
longer than the port can carry, and `ret` are the model's (log 4, log 5), and the free answer is any. -/
def Obligations.PollTakesOneAnswer : Prop :=
  ∀ s : State, s.Running →
    (∀ r rest, s.frameIn = r :: rest → (∀ f, r = some f → f.payload.length ≤ 8) →
      exec .poll s = .next { s with frameIn := rest, ret := some (.polled r) }) ∧
    (∀ f rest, s.frameIn = some f :: rest → 8 < f.payload.length →
      exec .poll s =
        .next { s with frameIn := rest, ret := some (.polled (some { f with payload := f.payload.take 8 })) }) ∧
    (s.frameIn = [] →
      ∃ r, (∀ f, r = some f → f.payload.length ≤ 8) ∧
        exec .poll s = .next { s with draws := s.draws + 1, ret := some (.polled r) })

/-- R200: the code with its operands; a frame of class UNITS is broadcast, one for channels is processed by every slot that
accepts its target, and any other changes nothing. The only event is at most one SaveUnits. (The operand fields beside the
code are the model's carriage, log 6, and that the row FRAME_UNITS is DISPATCH's branch is log 15.) -/
def Obligations.DispatchFollowsClass : Prop :=
  (∀ f : Frame, f.payload.length ≤ 8 →
    decodeCommand 0x41#8 (f.id.toNat :: f.payload.length :: f.payload.map (·.toNat)) = .ok (.dispatch f)) ∧
  ∀ (f : Frame) (s : State), s.Running →
    (targetOf f.id = s.params.addrUnits → exec (.dispatch f) s = exec (.frameUnits f) s) ∧
    (targetOf f.id ≠ s.params.addrUnits →
      exec (.dispatch f) s = .next { s with
        slots := s.slots.map fun c => if c.const.acceptAddr = targetOf f.id then afterPayload f.payload c else c }) ∧
    (targetOf f.id ≠ s.params.addrUnits → (∀ c ∈ s.slots, c.const.acceptAddr ≠ targetOf f.id) →
      exec (.dispatch f) s = .next s) ∧
    ∃ t l, exec (.dispatch f) s = .next t ∧ t.events = s.events ++ l ∧ (l = [] ∨ ∃ u, l = [.saveUnits u])

/-- R201, R6: a broadcast whose low nibble of byte 0 is mapped gives every slot the units, marks the slots with data dirty
and then saves once; nibble 1 is mapped in every configuration; one without a byte, or with an unmapped nibble, changes
nothing. Byte 0, the ignored cases and the order are the spec's own choices (D10, D39). -/
def Obligations.FrameUnitsBroadcasts : Prop :=
  ∀ (f : Frame) (s : State), s.Running →
    (f.payload = [] → exec (.frameUnits f) s = .next s) ∧
    ∀ b rest, f.payload = b :: rest →
      (b.toNat % 16 = 1 → ∃ u, unitAt s.params (b.toNat % 16) = some u) ∧
      (unitAt s.params (b.toNat % 16) = none → exec (.frameUnits f) s = .next s) ∧
      ∀ u, unitAt s.params (b.toNat % 16) = some u →
        exec (.frameUnits f) s = .next { s with
          slots := s.slots.map fun c => { c with units := u, dirty := c.dirty || c.hasData },
          events := s.events ++ [.saveUnits u] }

/-- R200, R161, R192: a frame for channels is processed by every slot that accepts its target, the last slot included,
and by no other. -/
def Obligations.FrameChannelReachesEveryMatch : Prop :=
  ∀ (f : Frame) (s : State), s.Running →
    exec (.frameChannel f) s = .next { s with
      slots := s.slots.map fun c => if c.const.acceptAddr = targetOf f.id then afterPayload f.payload c else c }

/-- R104, R307: a frame of class NONE changes nothing and emits nothing. -/
def Obligations.FrameIgnoredChangesNothing : Prop :=
  ∀ (f : Frame) (s : State), s.Running → exec (.frameIgnored f) s = .next s

/-- R203, whole: the code; in LOOP, CYCLE polls once, dispatches the frame if there is one, and then arbitrates on the
state the dispatch left, a frame or no frame; it answers a next state, with MODE still LOOP, having emitted at most one
SaveUnits and then at most one Render or Clear. In INIT it is refused with WRONG_MODE. -/
def Obligations.CycleDispatchesThenArbitrates : Prop :=
  decodeCommand 0x42#8 [] = .ok .cycle ∧
  ∀ s : State, s.Running →
    (s.mode = .loop →
      (s.drawFrame.1 = none → exec .cycle s = exec .arbitrate s.drawFrame.2) ∧
      (∀ f, s.drawFrame.1 = some f →
        ∃ u, exec (.dispatch f) s.drawFrame.2 = .next u ∧ exec .cycle s = exec .arbitrate u) ∧
      ∃ t l l', exec .cycle s = .next t ∧ t.mode = .loop ∧ t.events = s.events ++ (l ++ l') ∧
        (l = [] ∨ ∃ u, l = [.saveUnits u]) ∧ (l' = [] ∨ (∃ i v u, l' = [.render i v u]) ∨ l' = [.clear])) ∧
    ∀ ph sub, s.mode = .init ph sub →
      exec .cycle s = .next { s with refused := some (.wrongMode (.init ph sub)) }

/-! ## Arbitration -/

/-- R221, whole: the lowest-index fresh slot is rendered and recorded, even when it is LAST, and no other slot is
touched. -/
def Obligations.ArbitrateShowsFirstFresh : Prop :=
  ∀ (i : Nat) (s : State) (c : Slot), s.Running → s.slots[i]? = some c → c.hasData = true → c.dirty = true →
    (∀ j < i, ∀ d, s.slots[j]? = some d → ¬ (d.hasData = true ∧ d.dirty = true)) →
    exec .arbitrate s = .next { s with
      slots := s.slots.set i { c with dirty := false }, events := s.events ++ [.render i c.value c.units],
      last := some i }

/-- R222, whole: with no slot fresh, the lowest-index available slot is rendered and recorded, unless it is LAST: then
nothing changes. -/
def Obligations.ArbitrateShowsFirstAvailable : Prop :=
  ∀ (i : Nat) (s : State) (c : Slot), s.Running →
    (∀ d ∈ s.slots, ¬ (d.hasData = true ∧ d.dirty = true)) → s.slots[i]? = some c → c.hasData = true →
    (∀ j < i, ∀ d, s.slots[j]? = some d → d.hasData = false) →
    (s.last = some i → exec .arbitrate s = .next s) ∧
    (s.last ≠ some i →
      exec .arbitrate s = .next { s with
        slots := s.slots.set i { c with dirty := false }, events := s.events ++ [.render i c.value c.units],
        last := some i })

/-- R223: with no slot available, what was shown is cleared once, and nothing is written when nothing was shown. That
LAST becomes none is the spec's own choice (D12). -/
def Obligations.ArbitrateClearsOnlyWhatWasShown : Prop :=
  ∀ s : State, s.Running → (∀ d ∈ s.slots, d.hasData = false) →
    (s.last = none → exec .arbitrate s = .next s) ∧
    (s.last ≠ none → exec .arbitrate s = .next { s with events := s.events ++ [.clear], last := none })

/-- R224, R228: after ARBITRATE, LAST names the slot it rendered; it is none when it cleared; it is as before when it
emitted nothing; and there is no other case. -/
def Obligations.LastFollowsTheDisplay : Prop :=
  ∀ s t : State, exec .arbitrate s = .next t →
    (t.events = s.events ∧ t.last = s.last) ∨ (t.events = s.events ++ [.clear] ∧ t.last = none) ∨
    ∃ i v u, t.events = s.events ++ [.render i v u] ∧ t.last = some i

/-! ## The top-level step -/

/-- R205, after the first step: STEP runs INIT_STEP in INIT and CYCLE in LOOP, and answers a next state. -/
def Obligations.StepFollowsMode : Prop :=
  ∀ s : State, s.Running → s.regLocked = true →
    ((∃ ph sub, s.mode = .init ph sub) → exec .step s = exec .initStep s) ∧
    (s.mode = .loop → exec .step s = exec .cycle s) ∧
    ∃ t, exec .step s = .next t ∧ t.regLocked = true ∧ t.refused = none

/-- R193, R205, R305: the first STEP refuses a configuration or assembly that fails a check, changing nothing else;
otherwise it locks the registry and goes on as a later STEP does. (Which check is recorded when several fail is the model's
order, log 20.) -/
def Obligations.FirstStepChecksAndLocks : Prop :=
  ∀ s : State, s.Running → s.regLocked = false →
    (∀ chk, configCheck s = some chk → exec .step s = .next { s with refused := some (.configInvalid chk) }) ∧
    (configCheck s = none → exec .step s = exec .step { s with regLocked := true })

/-- R7, R193: the check passes exactly when the limit is at least 1 and fits the counter, every address has 13 bits,
every slot is set, and no channel is set twice. -/
def Obligations.ConfigCheckIsTheRules : Prop :=
  ∀ s : State, configCheck s = none ↔
    1 ≤ s.params.wdtLimit ∧ s.params.wdtLimit < 2 ^ s.params.cntW ∧
    (∀ c ∈ s.slots, c.const.acceptAddr < 2 ^ 13) ∧ s.params.addrUnits < 2 ^ 13 ∧
    (∀ a ∈ s.params.filterAddr, a < 2 ^ 13) ∧ (∀ c ∈ s.slots, c.reg ≠ none) ∧
    ∀ (i j : Nat) (c d : Slot) (h : Nat),
      s.slots[i]? = some c → s.slots[j]? = some d → c.reg = some h → d.reg = some h → i = j

/-- R42, R123, R308 check 1: a state with a recorded fault or refusal, or in RESET, has no step, whatever is issued: no
instruction runs in it. (That the model answers such a step with a stop is log 8.) -/
def Obligations.HaltedHasNoStep : Prop :=
  ∀ (i : Instr) (s : State), s.fault ≠ none ∨ s.refused ≠ none ∨ s.mode = .reset →
    (∃ r, exec i s = .fault r) ∧ ∃ r, step s = .fault r

/-- R80, R83: a step runs what is issued: the instruction a command decodes to, the row of a frame's class, or the
environment's STEP when nothing is issued; the issue is consumed. An issue that cannot be spelled (an operand field too wide,
too many of them, a payload of more than 8 bytes) runs nothing: it stops by name in a state that has a step. The command port,
and what it refuses as unspelled, are the model's (log 6). -/
def Obligations.StepRunsDecoded : Prop :=
  ∀ s : State,
    (s.issued = [] → step s = exec .step s) ∧
    (∀ code ops rest i, s.issued = .command code ops :: rest → decodeCommand code ops = .ok i →
      step s = exec i { s with issued := rest }) ∧
    (∀ f rest, s.issued = .frame f :: rest → f.payload.length ≤ 8 →
      step s = exec (frameRow s.config f) { s with issued := rest }) ∧
    (s.Running →
      (∀ code ops rest c, s.issued = .command code ops :: rest → decodeCommand code ops = .error (.badOperands c) →
        step s = .refused (.malformedOperands c)) ∧
      ∀ f rest, 8 < f.payload.length → (s.issued = .frame f :: rest ∨ s.issued = .stimulus (.frame f) :: rest) →
        step s = .refused .malformedFrame)

/-- R85, R306, R308: each stimulus in each MODE that has a step: of the right MODE it is STEP with its answer next at its
port, UNITS_BCAST being FRAME with the encoded identifier and its one byte; of the wrong MODE it is refused with WRONG_MODE.
Where the first step's checks fail, it is STEP's refusal. The ports and the consumed issue are the model's (logs 4 and 6), and
so is where a stimulus meets the first step's checks (log 13). -/
def Obligations.StimulusIsStepWithItsAnswer : Prop :=
  ∀ (s : State) (st : Stimulus) (rest : List Issue),
    s.Running → s.issued = .stimulus st :: rest → (∀ f, st = .frame f → f.payload.length ≤ 8) →
    (∀ chk, s.regLocked = false → configCheck s = some chk →
      step s = .next { s with issued := rest, refused := some (.configInvalid chk) }) ∧
    (s.regLocked = true ∨ configCheck s = none →
      (∀ ph, s.mode = .init ph .attempt →
        (st = .ok → step s = exec .step { s with issued := rest, attemptIn := .ok :: s.attemptIn }) ∧
        (st = .fail → step s = exec .step { s with issued := rest, attemptIn := .fail :: s.attemptIn }) ∧
        (st ≠ .ok → st ≠ .fail →
          step s = .next { s with issued := rest, refused := some (.wrongMode (.init ph .attempt)) })) ∧
      (∀ ph, s.mode = .init ph .backoff →
        (st = .wait → step s = exec .step { s with issued := rest }) ∧
        (st ≠ .wait → step s = .next { s with issued := rest, refused := some (.wrongMode (.init ph .backoff)) })) ∧
      (s.mode = .loop →
        (st = .idle → step s = exec .step { s with issued := rest, frameIn := none :: s.frameIn }) ∧
        (∀ f, st = .frame f → step s = exec .step { s with issued := rest, frameIn := some f :: s.frameIn }) ∧
        (∀ p sd n, st = .unitsBcast p sd n →
          step s = exec .step { s with
            issued := rest, frameIn := some (unitsBroadcast s p sd n) :: s.frameIn }) ∧
        (st = .ok ∨ st = .fail ∨ st = .wait →
          step s = .next { s with issued := rest, refused := some (.wrongMode .loop) })))

/-! ## Encoding -/

/-- R79, R81: the command decoder knows the codes of the table and no other; an issued code outside it is refused with
UNKNOWN_OP and the code, and runs nothing. -/
def Obligations.UnknownCodesRefused : Prop :=
  ∀ (code : Byte) (ops : List Nat),
    code.toNat ∉ [0x01, 0x02, 0x03, 0x04, 0x05, 0x10, 0x11, 0x12, 0x13, 0x20, 0x21, 0x22, 0x23, 0x24, 0x25, 0x26,
      0x30, 0x31, 0x40, 0x41, 0x42, 0x50, 0x60] →
    decodeCommand code ops = .error (.unknownOp code) ∧
    ∀ (s : State) (rest : List Issue), s.Running → s.issued = .command code ops :: rest →
      step s = .next { s with issued := rest, refused := some (.unknownOp code) }

/-- R79, R77: the word of every row of the table, with operands written out, and an operand past each range of R83. The
operand fields' order is R79's; their carriage, and that an unspelled one is refused, are the model's (log 6). -/
def Obligations.TableWordsDecode : Prop :=
  (decodeCommand 0x01#8 [0x10024040, 0x03FFE000, 13] = .ok (.extract 0x10024040#32 0x03FFE000#32 13#5) ∧
    decodeCommand 0x02#8 [0x123, 0x03FFE000, 13] = .ok (.pack 0x123#32 0x03FFE000#32 13#5) ∧
    decodeCommand 0x03#8 [0x10024040] = .ok (.decodeId 0x10024040#32) ∧
    decodeCommand 0x04#8 [4, 0x123, 0x40] = .ok (.encodeId 4#32 0x123#32 0x40#32) ∧
    decodeCommand 0x05#8 [0x10246040] = .ok (.classify 0x10246040#32)) ∧
  (decodeCommand 0x10#8 [] = .ok .countError ∧ decodeCommand 0x11#8 [] = .ok .clearErrors ∧
    decodeCommand 0x12#8 [2, 1] = .ok (.guardedAttempt (.filter 1)) ∧ decodeCommand 0x13#8 [] = .ok .initStep) ∧
  (decodeCommand 0x20#8 [0, 0x123] = .ok (.recognize 0 0x123#13) ∧
    decodeCommand 0x21#8 [0, 0x123, 1, 0x8C] = .ok (.processFrame 0 0x123#13 [0x8C#8]) ∧
    decodeCommand 0x22#8 [1] = .ok (.shouldRender 1) ∧ decodeCommand 0x23#8 [1] = .ok (.canRender 1) ∧
    decodeCommand 0x24#8 [1] = .ok (.render 1) ∧ decodeCommand 0x25#8 [1, 1] = .ok (.setUnits 1 .imperial) ∧
    decodeCommand 0x26#8 [1] = .ok (.getName 1)) ∧
  (decodeCommand 0x30#8 [1000] = .ok (.regGet 1000) ∧ decodeCommand 0x31#8 [1, 7] = .ok (.regSet 1 7)) ∧
  (decodeCommand 0x40#8 [] = .ok .poll ∧
    decodeCommand 0x41#8 [0x10246040, 1, 0x8C] = .ok (.dispatch ⟨0x10246040#32, [0x8C#8]⟩) ∧
    decodeCommand 0x42#8 [] = .ok .cycle ∧ decodeCommand 0x50#8 [] = .ok .arbitrate ∧
    decodeCommand 0x60#8 [] = .ok .step ∧ decodeCommand 0x07#8 [] = .error (.unknownOp 0x07#8)) ∧
  (decodeIssue Config.vectors (.frame ⟨0x10602040#32, [1#8]⟩) = .ok (.frameUnits ⟨0x10602040#32, [1#8]⟩) ∧
    decodeIssue Config.vectors (.frame ⟨0x10246040#32, [0x8C#8]⟩) = .ok (.frameChannel ⟨0x10246040#32, [0x8C#8]⟩) ∧
    decodeIssue Config.vectors (.frame ⟨0x10024040#32, []⟩) = .ok (.frameIgnored ⟨0x10024040#32, []⟩)) ∧
  (decodeCommand 0x01#8 [0, 0, 32] = .error (.badOperands 0x01#8) ∧
    decodeCommand 0x02#8 [0, 0, 32] = .error (.badOperands 0x02#8) ∧
    decodeCommand 0x03#8 [2 ^ 32] = .error (.badOperands 0x03#8) ∧
    decodeCommand 0x20#8 [0, 2 ^ 13] = .error (.badOperands 0x20#8) ∧
    decodeCommand 0x21#8 [0, 0, 9, 0, 0, 0, 0, 0, 0, 0, 0, 0] = .error (.badOperands 0x21#8) ∧
    decodeCommand 0x25#8 [0, 2] = .error (.badOperands 0x25#8) ∧
    decodeCommand 0x41#8 [0, 1, 256] = .error (.badOperands 0x41#8) ∧
    decodeCommand 0x60#8 [0] = .error (.badOperands 0x60#8))

/-- R79: decoding the issue that spells a well-formed instruction gives it back, with every operand at every value; a
frame under any configuration gives back the row of its class. -/
def Obligations.DecodeOfEncode : Prop :=
  ∀ (cfg : Config) (i : Instr), i.wf = true →
    (∀ f, (i = .frameUnits f ∨ i = .frameChannel f ∨ i = .frameIgnored f) → i = frameRow cfg f) →
    decodeIssue cfg (encode i) = .ok i

/-! ## Whole-machine rules -/

/-- R26, R27, R33, R30, R22, R126: the invariant of a run is kept by every step from every state that has it. -/
def Obligations.StepKeepsInv : Prop :=
  ∀ s t : State, s.Inv → step s = .next t → t.Inv

/-- R43: the reset state of every configuration with a legal limit has the invariant. -/
def Obligations.ResetHasInv : Prop :=
  ∀ (cfg : Config) (u : Units), 1 ≤ cfg.params.wdtLimit → cfg.params.wdtLimit < 2 ^ cfg.params.cntW →
    (State.resetOf cfg u).Inv

/-- D7, R11: no step lets a frame of more than 8 bytes into the block: a frame drawn is at most 8 bytes in every state,
whatever waits at the port and whatever a free poll answers; every instruction a step runs is well-formed, so its payload is
at most 8 bytes; and the port types are kept. What is done with a longer one is the model's (logs 4 and 6; `ret` is log 5). -/
def Obligations.StepKeepsPorts : Prop :=
  (∀ (s : State) (f : Frame), s.drawFrame.1 = some f → f.payload.length ≤ 8) ∧
  (∀ (s t : State) (i : Instr), fetch s = .run i t → i.wf = true) ∧
  ∀ s t : State, s.PortsOk → step s = .next t → t.PortsOk

/-- R408, whole: no step writes the configuration (addresses, decoders, limit, and with them the phase list) or changes
the number of slots; once the first step has locked the registry it stays locked and no entry changes; and a REG_SET after
that is refused. -/
def Obligations.ConfigurationIsStatic : Prop :=
  (∀ s t : State, step s = .next t →
    t.config = s.config ∧
    (s.regLocked = true → t.regLocked = true ∧ t.slots.map (·.reg) = s.slots.map (·.reg))) ∧
  ∀ (n ch : Nat) (s : State), s.Running → s.regLocked = true →
    exec (.regSet n ch) s = .next { s with refused := some (.regSetAfterStart n) }

/-- R34: no step takes a slot's data away. -/
def Obligations.HasDataNeverLost : Prop :=
  ∀ (s t : State) (i : Nat) (c : Slot), step s = .next t → s.slots[i]? = some c → c.hasData = true →
    ∃ d, t.slots[i]? = some d ∧ d.hasData = true

/-- R40, R225: the output stream only grows at its end, and from a state with the invariant no step emits Clear. -/
def Obligations.EventsOnlyAppendAndNeverClear : Prop :=
  ∀ s t : State, step s = .next t → ∃ l, t.events = s.events ++ l ∧ (s.Inv → .clear ∉ l)

/-- R25: every instruction but CLEAR_ERRORS leaves ERR_CNT as it was or larger, and only COUNT_ERROR, GUARDED_ATTEMPT,
INIT_STEP and STEP can make it larger. -/
def Obligations.ErrorsOnlyCounted : Prop :=
  ∀ (i : Instr) (s t : State), exec i s = .next t →
    (i ≠ .clearErrors → s.errCnt ≤ t.errCnt) ∧
    (i ≠ .clearErrors → i ≠ .countError → (∀ op, i ≠ .guardedAttempt op) → i ≠ .initStep → i ≠ .step →
      t.errCnt = s.errCnt)

/-- R30, R224: only ARBITRATE writes LAST, issued alone or by CYCLE or STEP. -/
def Obligations.LastWrittenByArbitrationOnly : Prop :=
  ∀ (i : Instr) (s t : State), exec i s = .next t → i ≠ .arbitrate → i ≠ .cycle → i ≠ .step → t.last = s.last

/-- R301, R303, R302: the environment's STEP never records a fault, and only its first records a refusal; so a block
that only steps ends in RESET or never. -/
def Obligations.StepNeverFaults : Prop :=
  ∀ s t : State, exec .step s = .next t →
    t.fault = none ∧ (s.regLocked = true → t.refused = none)

/-- R134, R404, D22, D32: any instruction enters LOOP only from DISPLAY_BEGIN's attempt answered OK; and while MODE is INIT,
STEP polls no frame, touches no slot and emits no Render and no Clear. -/
def Obligations.LoopOnlyAfterDisplayBegin : Prop :=
  (∀ (i : Instr) (s t : State), exec i s = .next t → t.mode = .loop →
    s.mode = .loop ∨ (s.mode = .init .displayBegin .attempt ∧ (drawFor .displayBegin s).1 = .ok)) ∧
  ∀ (s t : State) (ph : Phase) (sub : Sub), s.mode = .init ph sub → exec .step s = .next t →
    t.frameIn = s.frameIn ∧ t.slots = s.slots ∧ t.last = s.last ∧
    ∃ l, t.events = s.events ++ l ∧ .clear ∉ l ∧ ∀ i v u, .render i v u ∉ l

/-- R135, R126: from every state with the invariant that is in phase number j of INIT, whatever the environment answers,
the block reaches LOOP or RESET within the bound of R135 (P - j successes and two steps for each failure left). From
reset this is P + 2 * (WDT_LIMIT - 1) steps. It rests on log 17: every collaborator call returns. -/
def Obligations.InitialisationEnds : Prop :=
  ∀ (s : State) (ph : Phase) (sub : Sub) (j : Nat),
    s.Inv → s.Running → s.issued = [] → (s.regLocked = true ∨ s.ConfigOk) →
    s.mode = .init ph sub → (phaseList s.params)[j]? = some ph →
    ∃ k t, k ≤ initBound s j sub ∧ Host.Core.run core k s = .next t ∧ (t.mode = .loop ∨ t.mode = .reset)

/-! ## Reset and boot -/

/-- R43: what reset leaves where the rule gives the value. (That REG[i] holds channel i is R36 with log 9; VALUE has no
value there.) -/
def Obligations.ResetValues : Prop :=
  ∀ (cfg : Config) (u : Units),
    let s := State.resetOf cfg u
    s.mode = .init .busBegin .attempt ∧ s.errCnt = 0 ∧ s.wdtState = .running ∧ s.last = none ∧ s.regLocked = false ∧
    s.fault = none ∧ s.refused = none ∧ s.events = [] ∧ s.hwReset = false ∧ s.config = cfg ∧
    (∀ c ∈ s.slots, c.hasData = false ∧ c.dirty = false ∧ c.units = u) ∧
    ∀ (i : Nat) (c : Slot), s.slots[i]? = some c → c.reg = some i

/-- R402: from the constructed block, REG_SET of each channel at its slot, in slot order, gives the reset state. (Channel
i at slot i: R36, log 9.) -/
def Obligations.AssemblyGivesReset : Prop :=
  ∀ (cfg : Config) (u : Units),
    (List.range cfg.slots.length).foldlM
      (fun s i => match exec (.regSet i i) s with
        | .next t => some t
        | .fault _ => none
        | .refused _ => none)
      (State.beforeAssembly cfg u) = some (State.resetOf cfg u)

/-! ## The display collaborator's readings -/

/-- R170, R171: C is b/2 - 40 exactly, and F - 32 is an integer nearest to 1.8 C, away from zero on a tie. The rounding is
the spec's own reading (D28). -/
def Obligations.TemperatureReadings : Prop :=
  ∀ b : Byte,
    temperatureReading b .metric = .celsiusHalves ((b.toNat : Int) - 80) ∧
    ∃ n : Int, temperatureReading b .imperial = .fahrenheit (n + 32) ∧
      -5 ≤ 10 * n - 9 * ((b.toNat : Int) - 80) ∧ 10 * n - 9 * ((b.toNat : Int) - 80) ≤ 5 ∧
      (10 * n - 9 * ((b.toNat : Int) - 80) = 5 → 0 < n) ∧ (10 * n - 9 * ((b.toNat : Int) - 80) = -5 → n < 0)
end

