-- ==== Sys2Proof/Laws/State.lean ====
section
/-! SUPPORT. One lemma per field and update: what each named write of Machine/Ops.lean leaves in each field. -/

namespace Sys2Proof.Machine

/-! ## State.emit -/

@[simp] theorem State.emit_params (s : State) (e : Event) : (s.emit e).params = s.params := rfl
@[simp] theorem State.emit_slots (s : State) (e : Event) : (s.emit e).slots = s.slots := rfl
@[simp] theorem State.emit_mode (s : State) (e : Event) : (s.emit e).mode = s.mode := rfl
@[simp] theorem State.emit_errCnt (s : State) (e : Event) : (s.emit e).errCnt = s.errCnt := rfl
@[simp] theorem State.emit_wdtState (s : State) (e : Event) : (s.emit e).wdtState = s.wdtState := rfl
@[simp] theorem State.emit_last (s : State) (e : Event) : (s.emit e).last = s.last := rfl
@[simp] theorem State.emit_regLocked (s : State) (e : Event) : (s.emit e).regLocked = s.regLocked := rfl
@[simp] theorem State.emit_fault (s : State) (e : Event) : (s.emit e).fault = s.fault := rfl
@[simp] theorem State.emit_refused (s : State) (e : Event) : (s.emit e).refused = s.refused := rfl
@[simp] theorem State.emit_events (s : State) (e : Event) : (s.emit e).events = s.events ++ [e] := rfl
@[simp] theorem State.emit_attemptIn (s : State) (e : Event) : (s.emit e).attemptIn = s.attemptIn := rfl
@[simp] theorem State.emit_frameIn (s : State) (e : Event) : (s.emit e).frameIn = s.frameIn := rfl
@[simp] theorem State.emit_draws (s : State) (e : Event) : (s.emit e).draws = s.draws := rfl
@[simp] theorem State.emit_ret (s : State) (e : Event) : (s.emit e).ret = s.ret := rfl
@[simp] theorem State.emit_issued (s : State) (e : Event) : (s.emit e).issued = s.issued := rfl
@[simp] theorem State.emit_config (s : State) (e : Event) : (s.emit e).config = s.config := rfl
@[simp] theorem State.emit_n (s : State) (e : Event) : (s.emit e).n = s.n := rfl

/-! ## State.raise -/

@[simp] theorem State.raise_params (s : State) (f : FaultCode) : (s.raise f).params = s.params := rfl
@[simp] theorem State.raise_slots (s : State) (f : FaultCode) : (s.raise f).slots = s.slots := rfl
@[simp] theorem State.raise_mode (s : State) (f : FaultCode) : (s.raise f).mode = s.mode := rfl
@[simp] theorem State.raise_errCnt (s : State) (f : FaultCode) : (s.raise f).errCnt = s.errCnt := rfl
@[simp] theorem State.raise_wdtState (s : State) (f : FaultCode) : (s.raise f).wdtState = s.wdtState := rfl
@[simp] theorem State.raise_last (s : State) (f : FaultCode) : (s.raise f).last = s.last := rfl
@[simp] theorem State.raise_regLocked (s : State) (f : FaultCode) : (s.raise f).regLocked = s.regLocked := rfl
@[simp] theorem State.raise_fault (s : State) (f : FaultCode) : (s.raise f).fault = some f := rfl
@[simp] theorem State.raise_refused (s : State) (f : FaultCode) : (s.raise f).refused = s.refused := rfl
@[simp] theorem State.raise_events (s : State) (f : FaultCode) : (s.raise f).events = s.events := rfl
@[simp] theorem State.raise_attemptIn (s : State) (f : FaultCode) : (s.raise f).attemptIn = s.attemptIn := rfl
@[simp] theorem State.raise_frameIn (s : State) (f : FaultCode) : (s.raise f).frameIn = s.frameIn := rfl
@[simp] theorem State.raise_draws (s : State) (f : FaultCode) : (s.raise f).draws = s.draws := rfl
@[simp] theorem State.raise_ret (s : State) (f : FaultCode) : (s.raise f).ret = s.ret := rfl
@[simp] theorem State.raise_issued (s : State) (f : FaultCode) : (s.raise f).issued = s.issued := rfl
@[simp] theorem State.raise_config (s : State) (f : FaultCode) : (s.raise f).config = s.config := rfl
@[simp] theorem State.raise_n (s : State) (f : FaultCode) : (s.raise f).n = s.n := rfl

/-! ## State.refuse -/

@[simp] theorem State.refuse_params (s : State) (r : RefusalCode) : (s.refuse r).params = s.params := rfl
@[simp] theorem State.refuse_slots (s : State) (r : RefusalCode) : (s.refuse r).slots = s.slots := rfl
@[simp] theorem State.refuse_mode (s : State) (r : RefusalCode) : (s.refuse r).mode = s.mode := rfl
@[simp] theorem State.refuse_errCnt (s : State) (r : RefusalCode) : (s.refuse r).errCnt = s.errCnt := rfl
@[simp] theorem State.refuse_wdtState (s : State) (r : RefusalCode) : (s.refuse r).wdtState = s.wdtState := rfl
@[simp] theorem State.refuse_last (s : State) (r : RefusalCode) : (s.refuse r).last = s.last := rfl
@[simp] theorem State.refuse_regLocked (s : State) (r : RefusalCode) : (s.refuse r).regLocked = s.regLocked := rfl
@[simp] theorem State.refuse_fault (s : State) (r : RefusalCode) : (s.refuse r).fault = s.fault := rfl
@[simp] theorem State.refuse_refused (s : State) (r : RefusalCode) : (s.refuse r).refused = some r := rfl
@[simp] theorem State.refuse_events (s : State) (r : RefusalCode) : (s.refuse r).events = s.events := rfl
@[simp] theorem State.refuse_attemptIn (s : State) (r : RefusalCode) : (s.refuse r).attemptIn = s.attemptIn := rfl
@[simp] theorem State.refuse_frameIn (s : State) (r : RefusalCode) : (s.refuse r).frameIn = s.frameIn := rfl
@[simp] theorem State.refuse_draws (s : State) (r : RefusalCode) : (s.refuse r).draws = s.draws := rfl
@[simp] theorem State.refuse_ret (s : State) (r : RefusalCode) : (s.refuse r).ret = s.ret := rfl
@[simp] theorem State.refuse_issued (s : State) (r : RefusalCode) : (s.refuse r).issued = s.issued := rfl
@[simp] theorem State.refuse_config (s : State) (r : RefusalCode) : (s.refuse r).config = s.config := rfl
@[simp] theorem State.refuse_n (s : State) (r : RefusalCode) : (s.refuse r).n = s.n := rfl

/-! ## State.returns -/

@[simp] theorem State.returns_params (s : State) (r : Result) : (s.returns r).params = s.params := rfl
@[simp] theorem State.returns_slots (s : State) (r : Result) : (s.returns r).slots = s.slots := rfl
@[simp] theorem State.returns_mode (s : State) (r : Result) : (s.returns r).mode = s.mode := rfl
@[simp] theorem State.returns_errCnt (s : State) (r : Result) : (s.returns r).errCnt = s.errCnt := rfl
@[simp] theorem State.returns_wdtState (s : State) (r : Result) : (s.returns r).wdtState = s.wdtState := rfl
@[simp] theorem State.returns_last (s : State) (r : Result) : (s.returns r).last = s.last := rfl
@[simp] theorem State.returns_regLocked (s : State) (r : Result) : (s.returns r).regLocked = s.regLocked := rfl
@[simp] theorem State.returns_fault (s : State) (r : Result) : (s.returns r).fault = s.fault := rfl
@[simp] theorem State.returns_refused (s : State) (r : Result) : (s.returns r).refused = s.refused := rfl
@[simp] theorem State.returns_events (s : State) (r : Result) : (s.returns r).events = s.events := rfl
@[simp] theorem State.returns_attemptIn (s : State) (r : Result) : (s.returns r).attemptIn = s.attemptIn := rfl
@[simp] theorem State.returns_frameIn (s : State) (r : Result) : (s.returns r).frameIn = s.frameIn := rfl
@[simp] theorem State.returns_draws (s : State) (r : Result) : (s.returns r).draws = s.draws := rfl
@[simp] theorem State.returns_ret (s : State) (r : Result) : (s.returns r).ret = some r := rfl
@[simp] theorem State.returns_issued (s : State) (r : Result) : (s.returns r).issued = s.issued := rfl
@[simp] theorem State.returns_config (s : State) (r : Result) : (s.returns r).config = s.config := rfl
@[simp] theorem State.returns_n (s : State) (r : Result) : (s.returns r).n = s.n := rfl

/-! ## State.modSlot -/

@[simp] theorem State.modSlot_params (s : State) (i : Nat) (g : Slot → Slot) : (s.modSlot i g).params = s.params := rfl
@[simp] theorem State.modSlot_slots (s : State) (i : Nat) (g : Slot → Slot) : (s.modSlot i g).slots = s.slots.modify i g := rfl
@[simp] theorem State.modSlot_mode (s : State) (i : Nat) (g : Slot → Slot) : (s.modSlot i g).mode = s.mode := rfl
@[simp] theorem State.modSlot_errCnt (s : State) (i : Nat) (g : Slot → Slot) : (s.modSlot i g).errCnt = s.errCnt := rfl
@[simp] theorem State.modSlot_wdtState (s : State) (i : Nat) (g : Slot → Slot) : (s.modSlot i g).wdtState = s.wdtState := rfl
@[simp] theorem State.modSlot_last (s : State) (i : Nat) (g : Slot → Slot) : (s.modSlot i g).last = s.last := rfl
@[simp] theorem State.modSlot_regLocked (s : State) (i : Nat) (g : Slot → Slot) : (s.modSlot i g).regLocked = s.regLocked := rfl
@[simp] theorem State.modSlot_fault (s : State) (i : Nat) (g : Slot → Slot) : (s.modSlot i g).fault = s.fault := rfl
@[simp] theorem State.modSlot_refused (s : State) (i : Nat) (g : Slot → Slot) : (s.modSlot i g).refused = s.refused := rfl
@[simp] theorem State.modSlot_events (s : State) (i : Nat) (g : Slot → Slot) : (s.modSlot i g).events = s.events := rfl
@[simp] theorem State.modSlot_attemptIn (s : State) (i : Nat) (g : Slot → Slot) : (s.modSlot i g).attemptIn = s.attemptIn := rfl
@[simp] theorem State.modSlot_frameIn (s : State) (i : Nat) (g : Slot → Slot) : (s.modSlot i g).frameIn = s.frameIn := rfl
@[simp] theorem State.modSlot_draws (s : State) (i : Nat) (g : Slot → Slot) : (s.modSlot i g).draws = s.draws := rfl
@[simp] theorem State.modSlot_ret (s : State) (i : Nat) (g : Slot → Slot) : (s.modSlot i g).ret = s.ret := rfl
@[simp] theorem State.modSlot_issued (s : State) (i : Nat) (g : Slot → Slot) : (s.modSlot i g).issued = s.issued := rfl
@[simp] theorem State.modSlot_n (s : State) (i : Nat) (g : Slot → Slot) : (s.modSlot i g).n = s.n := by simp [State.n]

/-! ## State.terminateReset -/

@[simp] theorem State.terminateReset_params (s : State) : (s.terminateReset).params = s.params := rfl
@[simp] theorem State.terminateReset_slots (s : State) : (s.terminateReset).slots = s.slots := rfl
@[simp] theorem State.terminateReset_mode (s : State) : (s.terminateReset).mode = .reset := rfl
@[simp] theorem State.terminateReset_errCnt (s : State) : (s.terminateReset).errCnt = s.errCnt := rfl
@[simp] theorem State.terminateReset_wdtState (s : State) : (s.terminateReset).wdtState = .reset := rfl
@[simp] theorem State.terminateReset_last (s : State) : (s.terminateReset).last = s.last := rfl
@[simp] theorem State.terminateReset_regLocked (s : State) : (s.terminateReset).regLocked = s.regLocked := rfl
@[simp] theorem State.terminateReset_fault (s : State) : (s.terminateReset).fault = s.fault := rfl
@[simp] theorem State.terminateReset_refused (s : State) : (s.terminateReset).refused = s.refused := rfl
@[simp] theorem State.terminateReset_events (s : State) : (s.terminateReset).events = s.events ++ [.hwReset] := rfl
@[simp] theorem State.terminateReset_attemptIn (s : State) : (s.terminateReset).attemptIn = s.attemptIn := rfl
@[simp] theorem State.terminateReset_frameIn (s : State) : (s.terminateReset).frameIn = s.frameIn := rfl
@[simp] theorem State.terminateReset_draws (s : State) : (s.terminateReset).draws = s.draws := rfl
@[simp] theorem State.terminateReset_ret (s : State) : (s.terminateReset).ret = s.ret := rfl
@[simp] theorem State.terminateReset_issued (s : State) : (s.terminateReset).issued = s.issued := rfl
@[simp] theorem State.terminateReset_config (s : State) : (s.terminateReset).config = s.config := rfl
@[simp] theorem State.terminateReset_n (s : State) : (s.terminateReset).n = s.n := rfl

/-! ## State.goesOn -/

@[simp] theorem State.goesOn_params (s : State) (op : Op) : (s.goesOn op).params = s.params := rfl
@[simp] theorem State.goesOn_slots (s : State) (op : Op) : (s.goesOn op).slots = s.slots := rfl
@[simp] theorem State.goesOn_mode (s : State) (op : Op) : (s.goesOn op).mode = s.mode := rfl
@[simp] theorem State.goesOn_errCnt (s : State) (op : Op) : (s.goesOn op).errCnt = s.errCnt := rfl
@[simp] theorem State.goesOn_wdtState (s : State) (op : Op) : (s.goesOn op).wdtState = s.wdtState := rfl
@[simp] theorem State.goesOn_last (s : State) (op : Op) : (s.goesOn op).last = s.last := rfl
@[simp] theorem State.goesOn_regLocked (s : State) (op : Op) : (s.goesOn op).regLocked = s.regLocked := rfl
@[simp] theorem State.goesOn_fault (s : State) (op : Op) : (s.goesOn op).fault = s.fault := rfl
@[simp] theorem State.goesOn_refused (s : State) (op : Op) : (s.goesOn op).refused = s.refused := rfl
@[simp] theorem State.goesOn_events (s : State) (op : Op) : (s.goesOn op).events = s.events := rfl
@[simp] theorem State.goesOn_attemptIn (s : State) (op : Op) : (s.goesOn op).attemptIn = s.attemptIn := rfl
@[simp] theorem State.goesOn_frameIn (s : State) (op : Op) : (s.goesOn op).frameIn = s.frameIn := rfl
@[simp] theorem State.goesOn_draws (s : State) (op : Op) : (s.goesOn op).draws = s.draws := rfl
@[simp] theorem State.goesOn_ret (s : State) (op : Op) : (s.goesOn op).ret = s.ret := rfl
@[simp] theorem State.goesOn_issued (s : State) (op : Op) : (s.goesOn op).issued = encode (.guardedAttempt op) :: s.issued := rfl
@[simp] theorem State.goesOn_config (s : State) (op : Op) : (s.goesOn op).config = s.config := rfl
@[simp] theorem State.goesOn_n (s : State) (op : Op) : (s.goesOn op).n = s.n := rfl

/-! ## Slot writes -/

@[simp] theorem Slot.take_const (c : Slot) (v : Value) : (c.take v).const = c.const := rfl
@[simp] theorem Slot.take_hasData (c : Slot) (v : Value) : (c.take v).hasData = true := rfl
@[simp] theorem Slot.take_dirty (c : Slot) (v : Value) : (c.take v).dirty = (c.dirty || c.changedBy v) := rfl
@[simp] theorem Slot.take_value (c : Slot) (v : Value) : (c.take v).value = v := rfl
@[simp] theorem Slot.take_units (c : Slot) (v : Value) : (c.take v).units = c.units := rfl
@[simp] theorem Slot.take_reg (c : Slot) (v : Value) : (c.take v).reg = c.reg := rfl

@[simp] theorem Slot.withUnits_const (c : Slot) (u : Units) : (Slot.withUnits u c).const = c.const := rfl
@[simp] theorem Slot.withUnits_hasData (c : Slot) (u : Units) : (Slot.withUnits u c).hasData = c.hasData := rfl
@[simp] theorem Slot.withUnits_dirty (c : Slot) (u : Units) : (Slot.withUnits u c).dirty = (c.dirty || c.hasData) := rfl
@[simp] theorem Slot.withUnits_value (c : Slot) (u : Units) : (Slot.withUnits u c).value = c.value := rfl
@[simp] theorem Slot.withUnits_units (c : Slot) (u : Units) : (Slot.withUnits u c).units = u := rfl
@[simp] theorem Slot.withUnits_reg (c : Slot) (u : Units) : (Slot.withUnits u c).reg = c.reg := rfl

@[simp] theorem Slot.clean_const (c : Slot) : (c.clean).const = c.const := rfl
@[simp] theorem Slot.clean_hasData (c : Slot) : (c.clean).hasData = c.hasData := rfl
@[simp] theorem Slot.clean_dirty (c : Slot) : (c.clean).dirty = false := rfl
@[simp] theorem Slot.clean_value (c : Slot) : (c.clean).value = c.value := rfl
@[simp] theorem Slot.clean_units (c : Slot) : (c.clean).units = c.units := rfl
@[simp] theorem Slot.clean_reg (c : Slot) : (c.clean).reg = c.reg := rfl

end Sys2Proof.Machine
end

