-- ==== Sys2Proof/Laws/Ops.lean ====
section
/-! SUPPORT. What each shared operation of Machine/Ops.lean and Machine/Operands.lean can do, said once. -/

namespace Sys2Proof.Machine

/-! ## Who takes a step (R308 check 1) -/

theorem halted_none_iff (s : State) : s.halted = none ↔ s.Running := by
  unfold State.halted State.Running
  rcases hf : s.fault with _ | f <;> rcases hr : s.refused with _ | r <;> simp

theorem halted_of_running {s : State} (h : s.Running) : s.halted = none := (halted_none_iff s).2 h

theorem guarded_running {s : State} (h : s.Running) (k : State → State) : guarded s k = .next (k s) := by
  simp [guarded, halted_of_running h]

theorem guarded_halted {s : State} {r : Fault} (h : s.halted = some r) (k : State → State) :
    guarded s k = .fault r := by
  simp [guarded, h]

/-- A guarded command answers next exactly from a running state, and with the command's own result. -/
theorem guarded_next {s t : State} {k : State → State} : guarded s k = .next t ↔ s.Running ∧ t = k s := by
  rcases h : s.halted with _ | r
  · have hr := (halted_none_iff s).1 h
    simp only [guarded_running hr, Host.Outcome.next.injEq]
    exact ⟨fun e => ⟨hr, e.symm⟩, fun e => e.2.symm⟩
  · simp only [guarded_halted h, reduceCtorEq, false_iff]
    intro ⟨hr, _⟩
    simp [halted_of_running hr] at h

/-- No guarded command is refused. -/
theorem guarded_ne_refused (s : State) (k : State → State) (r : Refusal) : guarded s k ≠ .refused r := by
  unfold guarded
  split <;> simp

/-- A stop on an unspelled operand is never a next state. -/
theorem unspelled_ne_next (r : Refusal) (s t : State) : unspelled r s ≠ .next t := by
  unfold unspelled
  split <;> simp

theorem unspelled_running {s : State} (h : s.Running) (r : Refusal) : unspelled r s = .refused r := by
  simp [unspelled, halted_of_running h]

theorem unspelled_halted {s : State} {f : Fault} (h : s.halted = some f) (r : Refusal) : unspelled r s = .fault f := by
  simp [unspelled, h]

/-! ## Slot operands (R83) -/

theorem withSlot_some {s : State} {i : Nat} {c : Slot} (h : s.slots[i]? = some c) (k : Slot → State) :
    s.withSlot i k = k c := by
  simp [State.withSlot, h]

theorem withSlot_none {s : State} {i : Nat} (h : s.n ≤ i) (k : Slot → State) :
    s.withSlot i k = s.refuse (.badSlot i) := by
  have : s.slots[i]? = none := List.getElem?_eq_none h
  simp [State.withSlot, this]

/-- A slot operand is out of range, or names a slot of the list. -/
theorem withSlot_cases (s : State) (i : Nat) (k : Slot → State) :
    (s.n ≤ i ∧ s.withSlot i k = s.refuse (.badSlot i)) ∨ ∃ c, s.slots[i]? = some c ∧ s.withSlot i k = k c := by
  rcases h : s.slots[i]? with _ | c
  · exact .inl ⟨List.getElem?_eq_none_iff.1 h, by simp [State.withSlot, h]⟩
  · exact .inr ⟨c, rfl, withSlot_some h k⟩

/-- Writing a slot that is there replaces it and no other. -/
theorem modSlot_of_some {s : State} {i : Nat} {c : Slot} (h : s.slots[i]? = some c) (g : Slot → Slot) :
    s.modSlot i g = { s with slots := s.slots.set i (g c) } := by
  have : s.slots.modify i g = s.slots.set i (g c) := by
    rw [List.modify_eq_set_getElem?, h]
    rfl
  simp [State.modSlot, this]

theorem modSlot_get_same {s : State} {i : Nat} {c : Slot} (h : s.slots[i]? = some c) (g : Slot → Slot) :
    (s.modSlot i g).slots[i]? = some (g c) := by
  simp [h]

theorem modSlot_get_other {s : State} {i j : Nat} (h : i ≠ j) (g : Slot → Slot) :
    (s.modSlot i g).slots[j]? = s.slots[j]? := by
  simp [h]

/-! ## Draws (R11) -/

/-- A draw of an attempt touches its port and the counter of free draws, and nothing else. -/
theorem drawAttempt_form (s : State) :
    ∃ q d, s.drawAttempt.2 = { s with attemptIn := q, draws := d } := by
  unfold State.drawAttempt
  split
  · exact ⟨_, s.draws, rfl⟩
  · exact ⟨s.attemptIn, _, rfl⟩

theorem drawAttempt_waiting {s : State} {r : AttemptResult} {q : List AttemptResult} (h : s.attemptIn = r :: q) :
    s.drawAttempt = (r, { s with attemptIn := q }) := by
  simp [State.drawAttempt, h]

/-- A poll touches the frame port and the counter of free draws, and nothing else. -/
theorem drawFrame_form (s : State) :
    ∃ q d, s.drawFrame.2 = { s with frameIn := q, draws := d } ∧ ∀ r ∈ q, r ∈ s.frameIn := by
  unfold State.drawFrame
  split
  · next r rest h => exact ⟨rest, s.draws, rfl, fun x hx => by simp [h, hx]⟩
  · next h => exact ⟨s.frameIn, _, rfl, fun _ hx => hx⟩

theorem drawFrame_waiting {s : State} {r : Option Frame} {q : List (Option Frame)} (h : s.frameIn = r :: q) :
    s.drawFrame = (r.map carriedFrame, { s with frameIn := q }) := by
  simp [State.drawFrame, h]

theorem drawAttempt_free {s : State} (h : s.attemptIn = []) :
    s.drawAttempt = (Config.freeAttempt s.draws, { s with draws := s.draws + 1 }) := by
  simp [State.drawAttempt, h]

theorem carriedFrame_short (f : Frame) : (carriedFrame f).payload.length ≤ 8 := by
  simp [carriedFrame, maxPayload]

/-- A frame of at most 8 bytes is carried as it is. -/
theorem carriedFrame_of_short {f : Frame} (h : f.payload.length ≤ 8) : carriedFrame f = f := by
  simp [carriedFrame, maxPayload, List.take_of_length_le h]

/-- The frame port never gives more than 8 bytes (R11, D7). -/
theorem drawFrame_short {s : State} {f : Frame} (h : s.drawFrame.1 = some f) : f.payload.length ≤ 8 := by
  have hm : ∃ r : Option Frame, r.map carriedFrame = some f := by
    unfold State.drawFrame at h
    split at h
    · exact ⟨_, h⟩
    · exact ⟨_, h⟩
  obtain ⟨r, hr⟩ := hm
  obtain ⟨g, -, rfl⟩ := Option.map_eq_some_iff.1 hr
  exact carriedFrame_short g

/-! ## Iteration over the slots (R192) -/

theorem foldl_modSlot (g : Nat → Slot → Slot) (n : Nat) (s : State) :
    (List.range n).foldl (fun t i => t.modSlot i (g i)) s =
      { s with slots := s.slots.mapIdx fun i c => if i < n then g i c else c } := by
  induction n with
  | zero =>
    have : s.slots.mapIdx (fun _ c => c) = s.slots := by
      apply List.ext_getElem?
      intro k
      simp
    simp [this]
  | succ n ih =>
    rw [List.range_succ, List.foldl_append, ih]
    simp only [List.foldl_cons, List.foldl_nil, State.modSlot]
    congr 1
    apply List.ext_getElem?
    intro k
    simp only [List.getElem?_modify, List.getElem?_mapIdx]
    rcases s.slots[k]? with _ | c
    · simp
    · by_cases hk : n = k
      · subst hk; simp
      · have : (k < n + 1) ↔ k < n := by omega
        simp [hk, this]

/-- A loop that writes one slot at a time writes every slot once; no order is left in the result (R60, R192). -/
theorem forSlots_modSlot (g : Nat → Slot → Slot) (s : State) :
    (s.forSlots fun i t => t.modSlot i (g i)) = { s with slots := s.slots.mapIdx g } := by
  rw [State.forSlots, foldl_modSlot]
  congr 1
  apply List.ext_getElem?
  intro k
  simp only [List.getElem?_mapIdx]
  rcases h : s.slots[k]? with _ | c
  · simp
  · have hk : k < s.slots.length := by
      by_contra hc
      rw [List.getElem?_eq_none (by omega)] at h
      simp at h
    simp [State.n, hk]

/-- The configuration does not depend on what the slots' registers hold. -/
theorem config_of_const {s t : State} (hp : t.params = s.params)
    (hs : t.slots.map (·.const) = s.slots.map (·.const)) : t.config = s.config := by
  simp [State.config, hp, hs]

end Sys2Proof.Machine
end

