-- ==== Sys2Proof/Laws/Slots.lean ====
section
/-! SUPPORT. How a slot and the list of slots can change: constants stay, data is never lost, DIRTY never outruns
HAS_DATA (R32, R33, R34). -/

namespace Sys2Proof.Machine

/-- How one command may change one slot (R32, R33, R34), its registry entry apart. -/
structure Slot.Evolves (c d : Slot) : Prop where
  const_eq : d.const = c.const
  data_kept : c.hasData = true → d.hasData = true
  dirty_ok : (c.dirty = true → c.hasData = true) → d.dirty = true → d.hasData = true

theorem Slot.Evolves.refl (c : Slot) : Slot.Evolves c c := ⟨rfl, id, id⟩

theorem Slot.Evolves.trans {a b c : Slot} (h : Slot.Evolves a b) (k : Slot.Evolves b c) : Slot.Evolves a c :=
  ⟨k.const_eq.trans h.const_eq, k.data_kept ∘ h.data_kept, fun w => k.dirty_ok (h.dirty_ok w)⟩

theorem Slot.take_evolves (c : Slot) (v : Value) : Slot.Evolves c (c.take v) :=
  ⟨rfl, fun _ => rfl, fun _ _ => rfl⟩

theorem Slot.process_evolves (p : List Byte) (c : Slot) : Slot.Evolves c (Slot.process p c) := by
  unfold Slot.process
  split
  · exact .refl c
  · exact c.take_evolves _

theorem Slot.withUnits_evolves (u : Units) (c : Slot) : Slot.Evolves c (Slot.withUnits u c) := by
  refine ⟨rfl, id, fun w h => ?_⟩
  simp only [Slot.withUnits_dirty, Bool.or_eq_true] at h
  exact h.elim w id

theorem Slot.clean_evolves (c : Slot) : Slot.Evolves c c.clean :=
  ⟨rfl, id, fun _ h => by simp at h⟩

@[simp] theorem Slot.process_reg (p : List Byte) (c : Slot) : (Slot.process p c).reg = c.reg := by
  unfold Slot.process
  split <;> rfl

@[simp] theorem Slot.process_const (p : List Byte) (c : Slot) : (Slot.process p c).const = c.const :=
  (Slot.process_evolves p c).const_eq

/-- How one command may change the slots: each evolves in its place, and none comes or goes (R173, R195). -/
abbrev SlotsEvolve (a b : List Slot) : Prop := List.Forall₂ Slot.Evolves a b

theorem SlotsEvolve.refl (a : List Slot) : SlotsEvolve a a :=
  List.forall₂_same.2 fun c _ => Slot.Evolves.refl c

theorem SlotsEvolve.trans {a b c : List Slot} (h : SlotsEvolve a b) (k : SlotsEvolve b c) : SlotsEvolve a c := by
  rw [SlotsEvolve, List.forall₂_iff_get] at *
  refine ⟨h.1.trans k.1, fun i hi hk => ?_⟩
  exact (h.2 i hi (by omega)).trans (k.2 i (by omega) hk)

theorem slotsEvolve_modify {g : Slot → Slot} (hg : ∀ c, Slot.Evolves c (g c)) (a : List Slot) (i : Nat) :
    SlotsEvolve a (a.modify i g) := by
  rw [SlotsEvolve, List.forall₂_iff_get]
  refine ⟨by simp, fun k hk hk' => ?_⟩
  simp only [List.get_eq_getElem, List.getElem_modify]
  split
  · exact hg _
  · exact .refl _

theorem slotsEvolve_mapIdx {g : Nat → Slot → Slot} (hg : ∀ i c, Slot.Evolves c (g i c)) (a : List Slot) :
    SlotsEvolve a (a.mapIdx g) := by
  rw [SlotsEvolve, List.forall₂_iff_get]
  refine ⟨by simp, fun k hk hk' => ?_⟩
  simpa using hg k _

theorem SlotsEvolve.const_map {a b : List Slot} (h : SlotsEvolve a b) : b.map (·.const) = a.map (·.const) := by
  induction h with
  | nil => rfl
  | cons hd _ ih => simp only [List.map_cons, hd.const_eq, ih]

theorem SlotsEvolve.get {a b : List Slot} (h : SlotsEvolve a b) {i : Nat} {c : Slot} (hc : a[i]? = some c) :
    ∃ d, b[i]? = some d ∧ Slot.Evolves c d := by
  rw [SlotsEvolve, List.forall₂_iff_get] at h
  obtain ⟨hi, rfl⟩ := List.getElem?_eq_some_iff.1 hc
  exact ⟨b[i]'(by omega), List.getElem?_eq_getElem _, h.2 i hi (by omega)⟩

theorem SlotsEvolve.dirty_ok {a b : List Slot} (h : SlotsEvolve a b)
    (w : ∀ c ∈ a, c.dirty = true → c.hasData = true) : ∀ c ∈ b, c.dirty = true → c.hasData = true := by
  induction h with
  | nil => simp
  | cons hd _ ih =>
    simp only [List.mem_cons, forall_eq_or_imp] at w ⊢
    exact ⟨hd.dirty_ok w.1, ih w.2⟩

end Sys2Proof.Machine
end

