-- ==== Sys2Proof/Laws/Watchdog.lean ====
section
/-! SUPPORT. What the operations of the watchdog-guarded initialisation FSM can do, said once each. -/

namespace Sys2Proof.Machine

/-- COUNT_ERROR counts below the limit and resets at it (R120). -/
theorem countError_cases (s : State) :
    (s.errCnt + 1 < s.params.wdtLimit ∧ countError s = { s with errCnt := s.errCnt + 1 }) ∨
    (s.params.wdtLimit ≤ s.errCnt + 1 ∧
      countError s =
        { s with
          errCnt := s.errCnt + 1, wdtState := .reset, mode := .reset, events := s.events ++ [.hwReset] }) := by
  unfold countError
  by_cases h : s.params.wdtLimit ≤ s.errCnt + 1
  · exact .inr ⟨h, by simp [h, State.terminateReset]⟩
  · exact .inl ⟨by omega, by simp [h]⟩

theorem countError_below {s : State} (h : s.errCnt + 1 < s.params.wdtLimit) :
    countError s = { s with errCnt := s.errCnt + 1 } := by
  rcases countError_cases s with ⟨-, e⟩ | ⟨h', -⟩
  · exact e
  · omega

theorem countError_at_limit {s : State} (h : s.params.wdtLimit ≤ s.errCnt + 1) :
    countError s =
      { s with
        errCnt := s.errCnt + 1, wdtState := .reset, mode := .reset, events := s.events ++ [.hwReset] } := by
  rcases countError_cases s with ⟨h', -⟩ | ⟨-, e⟩
  · omega
  · exact e

/-- Emitting an attempt and drawing its answer (R131): the event, the port and the counter of free draws change. -/
theorem attemptOnce_form (op : Op) (s : State) :
    ∃ q d, (attemptOnce op s).2 =
      { s with events := s.events ++ [.attempt op (callOf s.params op)], attemptIn := q, draws := d } := by
  obtain ⟨q, d, h⟩ := drawAttempt_form (s.emit (.attempt op (callOf s.params op)))
  exact ⟨q, d, h⟩

/-- The fields the watchdog's operations write, and no other (R120, R122, R131, R133). -/
def WatchdogWrites (s t : State) : Prop :=
  ∃ m e w l q d, t = { s with
    mode := m, errCnt := e, wdtState := w, events := s.events ++ l, attemptIn := q, draws := d }

theorem WatchdogWrites.refl (s : State) : WatchdogWrites s s :=
  ⟨s.mode, s.errCnt, s.wdtState, [], s.attemptIn, s.draws, by simp⟩

theorem WatchdogWrites.trans {a b c : State} (h : WatchdogWrites a b) (k : WatchdogWrites b c) :
    WatchdogWrites a c := by
  obtain ⟨_, _, _, l, _, _, rfl⟩ := h
  obtain ⟨m, e, w, l', q, d, rfl⟩ := k
  exact ⟨m, e, w, l ++ l', q, d, by simp⟩

theorem emit_writes (s : State) (e : Event) : WatchdogWrites s (s.emit e) :=
  ⟨s.mode, s.errCnt, s.wdtState, [e], s.attemptIn, s.draws, rfl⟩

theorem mode_writes (s : State) (m : Mode) : WatchdogWrites s { s with mode := m } :=
  ⟨m, s.errCnt, s.wdtState, [], s.attemptIn, s.draws, by simp⟩

theorem countError_writes (s : State) : WatchdogWrites s (countError s) := by
  rcases countError_cases s with ⟨-, h⟩ | ⟨-, h⟩ <;> rw [h]
  · exact ⟨s.mode, s.errCnt + 1, s.wdtState, [], s.attemptIn, s.draws, by simp⟩
  · exact ⟨.reset, s.errCnt + 1, .reset, [.hwReset], s.attemptIn, s.draws, rfl⟩

theorem attemptOnce_writes (op : Op) (s : State) : WatchdogWrites s (attemptOnce op s).2 := by
  obtain ⟨q, d, h⟩ := attemptOnce_form op s
  rw [h]
  exact ⟨s.mode, s.errCnt, s.wdtState, [.attempt op (callOf s.params op)], q, d, rfl⟩

theorem advance_writes (ph : Phase) (s : State) : WatchdogWrites s (advance ph s) := by
  unfold advance
  split <;> exact mode_writes _ _

theorem attemptHalf_writes {ph : Phase} {k : State → State} (hk : ∀ t, WatchdogWrites t (k t)) (s : State) :
    WatchdogWrites s (attemptHalf ph k s) := by
  unfold attemptHalf
  have h := attemptOnce_writes ph.op s
  dsimp only
  split
  · exact h.trans (hk _)
  · split
    · exact h.trans (countError_writes _)
    · exact (h.trans (countError_writes _)).trans (mode_writes _ _)

theorem attemptStep_writes (ph : Phase) (s : State) : WatchdogWrites s (attemptStep ph s) :=
  attemptHalf_writes (advance_writes ph) s

theorem backoffStep_writes (ph : Phase) (s : State) : WatchdogWrites s (backoffStep ph s) :=
  (emit_writes s .backoff).trans (mode_writes _ _)

theorem attemptHalf_ok {ph : Phase} {k : State → State} {s : State} (h : (attemptOnce ph.op s).1 = .ok) :
    attemptHalf ph k s = k (attemptOnce ph.op s).2 := by
  simp [attemptHalf, h]

/-- A failure below the limit is counted and goes to BACKOFF (R131). -/
theorem attemptHalf_below {ph : Phase} {k : State → State} {s : State} (h : (attemptOnce ph.op s).1 = .fail)
    (hm : s.mode ≠ .reset) (hb : s.errCnt + 1 < s.params.wdtLimit) :
    attemptHalf ph k s =
      { (attemptOnce ph.op s).2 with errCnt := s.errCnt + 1, mode := .init ph .backoff } := by
  obtain ⟨q, d, e⟩ := attemptOnce_form ph.op s
  simp [attemptHalf, h, e, countError_below, hb, hm]

/-- A failure at the limit resets, with no Backoff (R127). -/
theorem attemptHalf_at_limit {ph : Phase} {k : State → State} {s : State} (h : (attemptOnce ph.op s).1 = .fail)
    (hb : s.params.wdtLimit ≤ s.errCnt + 1) :
    attemptHalf ph k s =
      { (attemptOnce ph.op s).2 with
        errCnt := s.errCnt + 1, wdtState := .reset, mode := .reset,
        events := (attemptOnce ph.op s).2.events ++ [.hwReset] } := by
  obtain ⟨q, d, e⟩ := attemptOnce_form ph.op s
  simp [attemptHalf, h, e, countError_at_limit, hb]

/-- What INIT_STEP writes in INIT. -/
theorem initStep_writes {s : State} {ph : Phase} {sub : Sub} (h : s.mode = .init ph sub) :
    WatchdogWrites s (initStep s) := by
  unfold initStep
  rw [h]
  cases sub
  · exact attemptStep_writes _ _
  · exact backoffStep_writes _ _

/-! ## The driver (R122) -/

theorem inPhase_iff {m : Mode} {ph : Phase} : m.inPhase ph = true ↔ ∃ sub, m = .init ph sub := by
  cases m <;> simp [Mode.inPhase]

@[simp] theorem opPhase_op (op : Op) : (opPhase op).op = op := by cases op <;> rfl

theorem opListed_iff {p : Params} {op : Op} : opListed p op = true ↔ opPhase op ∈ phaseList p := by
  simp [opListed]

theorem driveOnce_writes (op : Op) (s : State) : WatchdogWrites s (driveOnce op s) := by
  unfold driveOnce
  split
  · next h =>
    obtain ⟨sub, h⟩ := inPhase_iff.1 h
    exact initStep_writes h
  · exact attemptHalf_writes (fun t => .refl t) s

/-- A step of the driver returns, or goes on in its phase (R122). -/
theorem guardedAttempt_cases (op : Op) (s : State) :
    ((driveOnce op s).mode.inPhase (opPhase op) = false ∧ guardedAttempt op s = driveOnce op s) ∨
    ((driveOnce op s).mode.inPhase (opPhase op) = true ∧ guardedAttempt op s = (driveOnce op s).goesOn op) := by
  unfold guardedAttempt
  cases h : (driveOnce op s).mode.inPhase (opPhase op)
  · exact .inl ⟨rfl, by simp [h]⟩
  · exact .inr ⟨rfl, by simp [h]⟩

/-- The operand fields of an operation spell it. -/
theorem decode_guardedAttempt (op : Op) : decodeCommand 0x12#8 (opFields op) = .ok (.guardedAttempt op) := by
  have h : opcodeOf 0x12#8 = some .guardedAttempt := by decide
  have h2 : decodeOperands .guardedAttempt (opFields op) = some (.guardedAttempt op) := by
    cases op <;> simp [decodeOperands, upTo, operand, opFields, opOf]
  simp only [decodeCommand, h, h2]

end Sys2Proof.Machine
end

