-- ==== Sys2Proof/Laws/Loop.lean ====
section
/-! SUPPORT. What the operations of the channels, the arbitration multiplexer and the dispatch loop can do, said once
each. -/

namespace Sys2Proof.Machine

/-! ## Dispatch -/

/-- Dispatching to the slots of M processes each of them and no other (R200). -/
theorem processSlots_eq (m : List Nat) (p : List Byte) (s : State) :
    processSlots m p s =
      { s with slots := s.slots.mapIdx fun i c => if i ∈ m then Slot.process p c else c } := by
  have h : (fun (i : Nat) (t : State) => if i ∈ m then processFrameAt p i t else t) =
      fun i t => t.modSlot i (fun c => if i ∈ m then Slot.process p c else c) := by
    funext i t
    split
    · next hi => simp [processFrameAt]
    · next hi =>
      have : t.slots.modify i (fun c => c) = t.slots := by
        apply List.ext_getElem?
        intro k
        simp [List.getElem?_modify]
      simp [State.modSlot, this]
  rw [processSlots, h, forSlots_modSlot]

/-- Every slot takes the units of a broadcast (R201). -/
theorem setAllUnits_eq (u : Units) (s : State) :
    s.forSlots (setUnitsAt u) = { s with slots := s.slots.map (Slot.withUnits u) } := by
  have h : setUnitsAt u = fun (i : Nat) (t : State) => t.modSlot i (Slot.withUnits u) := rfl
  rw [h, forSlots_modSlot fun _ => Slot.withUnits u]
  congr 1
  apply List.ext_getElem?
  intro k
  simp

/-- A broadcast is ignored, or every slot takes its units and it is saved once (R201). -/
theorem unitBroadcast_cases (f : Frame) (s : State) :
    (unitBroadcast f s = s ∧ ((unitNibble f).bind (unitsOfNibble s.params)) = none) ∨
    ∃ u, ((unitNibble f).bind (unitsOfNibble s.params)) = some u ∧
      unitBroadcast f s =
        { s with slots := s.slots.map (Slot.withUnits u), events := s.events ++ [.saveUnits u] } := by
  unfold unitBroadcast
  rcases unitNibble f with _ | n
  · exact .inl ⟨rfl, rfl⟩
  · rcases hu : unitsOfNibble s.params n with _ | u
    · exact .inl ⟨by simp [hu], by simp [hu]⟩
    · refine .inr ⟨u, by simp [hu], ?_⟩
      simp only [hu, setAllUnits_eq]
      rfl

/-- The slots of M, and only those, recognise the target (R77, R160). -/
theorem mem_matchSlots (accept : List Nat) (t : Addr) (i : Nat) :
    i ∈ matchSlots accept t ↔ accept[i]? = some t.toNat := by
  simp only [matchSlots, List.mem_filter, List.mem_range, beq_iff_eq, and_iff_right_iff_imp]
  intro h
  exact (List.getElem?_eq_some_iff.1 h).1

theorem config_accept_get (s : State) (i : Nat) :
    s.config.accept[i]? = s.slots[i]?.map (·.const.acceptAddr) := by
  simp [State.config, Config.accept, Function.comp_def]

/-- What DISPATCH can do: the slots evolve with their registry entries, and at most one SaveUnits is emitted (R200). -/
theorem dispatch_form (f : Frame) (s : State) :
    ∃ sl l, dispatch f s = { s with slots := sl, events := s.events ++ l } ∧
      SlotsEvolve s.slots sl ∧ sl.map (·.reg) = s.slots.map (·.reg) ∧ (l = [] ∨ ∃ u, l = [.saveUnits u]) := by
  unfold dispatch
  split
  · rcases unitBroadcast_cases f s with ⟨h, -⟩ | ⟨u, -, h⟩
    · exact ⟨s.slots, [], by simp [h], .refl _, rfl, .inl rfl⟩
    · refine ⟨_, _, h, ?_, ?_, .inr ⟨u, rfl⟩⟩
      · exact List.forall₂_map_right_iff.2 (List.forall₂_same.2 fun c _ => Slot.withUnits_evolves u c)
      · simp [Function.comp_def]
  · next m _ =>
    refine ⟨_, [], by rw [processSlots_eq, List.append_nil], ?_, ?_, .inl rfl⟩
    · apply slotsEvolve_mapIdx
      intro i c
      split
      · exact Slot.process_evolves _ _
      · exact .refl _
    · apply List.ext_getElem?
      intro k
      simp only [List.getElem?_map, List.getElem?_mapIdx, Option.map_map]
      congr 1
      funext c
      simp only [Function.comp_apply]
      split <;> simp
  · exact ⟨s.slots, [], by simp, .refl _, rfl, .inl rfl⟩

/-! ## Rendering and arbitration -/

theorem renderAt_data {s : State} {i : Nat} {c : Slot} (h : s.slots[i]? = some c) (hd : c.hasData = true) :
    renderAt i s =
      { s with slots := s.slots.set i c.clean, events := s.events ++ [.render i c.value c.units] } := by
  rw [renderAt, withSlot_some h, if_pos hd, modSlot_of_some (c := c) (by simpa using h)]
  rfl

/-- `first i with P(i)` (R13): the least slot that meets P, or none. -/
theorem firstSlot_some {s : State} {p : Slot → Bool} {i : Nat} :
    s.firstSlot p = some i ↔
      ∃ c, s.slots[i]? = some c ∧ p c = true ∧ ∀ j < i, ∀ d, s.slots[j]? = some d → p d = false := by
  rw [State.firstSlot, List.findIdx?_eq_some_iff_getElem]
  constructor
  · rintro ⟨hi, hp, hlt⟩
    refine ⟨s.slots[i], List.getElem?_eq_getElem hi, hp, fun j hj d hd => ?_⟩
    obtain ⟨hj', rfl⟩ := List.getElem?_eq_some_iff.1 hd
    simpa using hlt j hj
  · rintro ⟨c, hc, hp, hlt⟩
    obtain ⟨hi, rfl⟩ := List.getElem?_eq_some_iff.1 hc
    exact ⟨hi, hp, fun j hj => by simp [hlt j hj _ (List.getElem?_eq_getElem (by omega))]⟩

theorem firstSlot_none {s : State} {p : Slot → Bool} :
    s.firstSlot p = none ↔ ∀ c ∈ s.slots, p c = false := by
  simp [State.firstSlot, List.findIdx?_eq_none_iff]

/-- Showing a slot that has data (R221, R222). -/
theorem show_data {s : State} {i : Nat} {c : Slot} (h : s.slots[i]? = some c) (hd : c.hasData = true) :
    show_ i s =
      { s with
        slots := s.slots.set i c.clean, events := s.events ++ [.render i c.value c.units], last := some i } := by
  rw [show_, renderAt_data h hd]

/-- What ARBITRATE can do (R220): show one slot that has data, do nothing, or clear what was shown when no slot has
data. -/
theorem arbitrate_cases (s : State) :
    (∃ i c, s.slots[i]? = some c ∧ c.hasData = true ∧
      arbitrate s =
        { s with
          slots := s.slots.set i c.clean, events := s.events ++ [.render i c.value c.units], last := some i }) ∨
    arbitrate s = s ∨
    ((∀ c ∈ s.slots, c.hasData = false) ∧ s.last ≠ none ∧
      arbitrate s = { s with events := s.events ++ [.clear], last := none }) := by
  unfold arbitrate
  rcases h1 : s.firstSlot Slot.shouldRender with _ | i
  · rcases h2 : s.firstSlot Slot.canRender with _ | i
    · rcases hl : s.last with _ | k
      · exact .inr (.inl (by simp [clearShown, hl]))
      · exact .inr (.inr ⟨fun c hc => firstSlot_none.1 h2 c hc, by simp, by simp [clearShown, hl, State.emit]⟩)
    · dsimp only
      split
      · exact .inr (.inl rfl)
      · obtain ⟨c, hc, hp, -⟩ := firstSlot_some.1 h2
        exact .inl ⟨i, c, hc, hp, show_data hc hp⟩
  · obtain ⟨c, hc, hp, -⟩ := firstSlot_some.1 h1
    have hd : c.hasData = true := by
      simp only [Slot.shouldRender, Bool.and_eq_true] at hp
      exact hp.1
    exact .inl ⟨i, c, hc, hd, show_data hc hd⟩

/-- Showing a slot changes that slot only, by clearing its DIRTY (R164). -/
theorem set_clean_evolves {a : List Slot} {i : Nat} {c : Slot} (h : a[i]? = some c) :
    SlotsEvolve a (a.set i c.clean) ∧ (a.set i c.clean).map (·.reg) = a.map (·.reg) := by
  have e : a.set i c.clean = a.modify i Slot.clean := by
    rw [List.modify_eq_set_getElem?, h]
    rfl
  rw [e]
  refine ⟨slotsEvolve_modify Slot.clean_evolves _ _, ?_⟩
  apply List.ext_getElem?
  intro k
  simp only [List.getElem?_map, List.getElem?_modify]
  rcases a[k]? with _ | d
  · rfl
  · by_cases hk : i = k <;> simp [hk]

/-- What ARBITRATE can write (R220). -/
theorem arbitrate_form (s : State) :
    ∃ sl l la, arbitrate s = { s with slots := sl, events := s.events ++ l, last := la } ∧
      SlotsEvolve s.slots sl ∧ sl.map (·.reg) = s.slots.map (·.reg) ∧
      (l = [] ∨ (∃ i v u, l = [.render i v u]) ∨ l = [.clear]) := by
  rcases arbitrate_cases s with ⟨i, c, hc, -, h⟩ | h | ⟨-, -, h⟩
  · exact ⟨_, _, _, h, (set_clean_evolves hc).1, (set_clean_evolves hc).2, .inr (.inl ⟨_, _, _, rfl⟩)⟩
  · exact ⟨s.slots, [], s.last, by simp [h], .refl _, rfl, .inl rfl⟩
  · exact ⟨s.slots, [.clear], none, h, .refl _, rfl, .inr (.inr rfl)⟩

/-- What CYCLE can write (R203): the slots, LAST, and at most one SaveUnits and then one Render or Clear. -/
theorem cycle_form (s : State) :
    ∃ sl l l' la q d, cycle s =
        { s with slots := sl, events := s.events ++ (l ++ l'), last := la, frameIn := q, draws := d } ∧
      SlotsEvolve s.slots sl ∧ sl.map (·.reg) = s.slots.map (·.reg) ∧ (∀ r ∈ q, r ∈ s.frameIn) ∧
      (l = [] ∨ ∃ u, l = [.saveUnits u]) ∧ (l' = [] ∨ (∃ i v u, l' = [.render i v u]) ∨ l' = [.clear]) := by
  obtain ⟨q, d, hd, hq⟩ := drawFrame_form s
  unfold cycle
  dsimp only
  rcases s.drawFrame.1 with _ | f
  · obtain ⟨sl, l, la, h, he, hr, hl⟩ := arbitrate_form s.drawFrame.2
    dsimp only
    rw [h, hd] at *
    exact ⟨sl, [], l, la, q, d, rfl, he, hr, hq, .inl rfl, hl⟩
  · obtain ⟨sl, l, hf, he, hr, hl⟩ := dispatch_form f s.drawFrame.2
    obtain ⟨sl', l', la, h, he', hr', hl'⟩ := arbitrate_form (dispatch f s.drawFrame.2)
    dsimp only
    rw [h]
    rw [hf] at he' hr' ⊢
    rw [hd] at he hr ⊢
    exact ⟨sl', l, l', la, q, d, by simp, he.trans he', hr'.trans hr, hq, hl, hl'⟩

end Sys2Proof.Machine
end

