-- ==== Sys2Proof/Laws/Exec.lean ====
section
/-! SUPPORT. Every meaning is a total effect on the state, run only in a state that has a step. -/

namespace Sys2Proof.Machine

/-- What an instruction does to a state that has a step. -/
def effect : Instr → State → State
  | .extract id mask shift, s => s.returns (.word (extractField id mask shift))
  | .pack value mask shift, s => s.returns (.word (packField value mask shift))
  | .decodeId id, s => s.returns (.ident (decodeIdent id))
  | .encodeId p t sd, s => s.returns (.word (encodeIdent p t sd))
  | .classify id, s => s.returns (.frameClass (classOf s.config id))
  | .countError, s => countError s
  | .clearErrors, s => clearErrors s
  | .guardedAttempt op, s => guardedAttempt op s
  | .initStep, s => initStep s
  | .recognize k t, s => s.withSlot k fun c => s.returns (.bool (c.recognizes t))
  | .processFrame k _ p, s => s.withSlot k fun _ => processFrameAt p k s
  | .shouldRender k, s => s.withSlot k fun c => s.returns (.bool c.shouldRender)
  | .canRender k, s => s.withSlot k fun c => s.returns (.bool c.canRender)
  | .render k, s => renderAt k s
  | .setUnits k u, s => s.withSlot k fun _ => setUnitsAt u k s
  | .getName k, s => s.withSlot k fun c => s.returns (.name c.const.name)
  | .regGet n, s => s.returns (.lookup (s.slots[n]?.map (·.reg)))
  | .regSet n ch, s => regSet n ch s
  | .poll, s => s.drawFrame.2.returns (.polled s.drawFrame.1)
  | .dispatch f, s => dispatch f s
  | .cycle, s => if s.mode = .loop then cycle s else s.refuse (.wrongMode s.mode)
  | .arbitrate, s => arbitrate s
  | .step, s => stepBlock s
  | .frameUnits f, s => unitBroadcast f s
  | .frameChannel f, s => processSlots (matchSlots s.config.accept (frameTarget f)) f.payload s
  | .frameIgnored _, s => s

/-- The operands of `i` are spelled under the configuration: an operation names a phase that is there (log 12). -/
def Spelled (p : Params) : Instr → Prop
  | .guardedAttempt op => opListed p op = true
  | _ => True

/-- Every arm of `exec` but that of an operation the configuration lacks runs its effect under check 1 of R308. -/
theorem exec_eq_guarded {i : Instr} {s : State} (h : Spelled s.params i) : exec i s = guarded s (effect i) := by
  cases i
  case guardedAttempt op => exact if_pos h
  all_goals rfl

/-- An operation the configuration lacks stops by name. -/
theorem exec_unlisted {op : Op} {s : State} (h : opListed s.params op = false) :
    exec (.guardedAttempt op) s = unspelled (.malformedOperands 0x12#8) s := by
  simp [exec, execGuardedAttempt, h]

theorem spelled_or (p : Params) (i : Instr) :
    Spelled p i ∨ ∃ op, i = .guardedAttempt op ∧ opListed p op = false := by
  cases i
  case guardedAttempt op =>
    cases h : opListed p op
    · exact .inr ⟨op, rfl, h⟩
    · exact .inl h
  all_goals exact .inl trivial

/-- An instruction answers next exactly from a state that has a step, spelled, and with its effect. -/
theorem exec_next {i : Instr} {s t : State} :
    exec i s = .next t ↔ s.Running ∧ Spelled s.params i ∧ t = effect i s := by
  rcases spelled_or s.params i with h | ⟨op, rfl, h⟩
  · simp [exec_eq_guarded h, guarded_next, h]
  · rw [exec_unlisted h]
    simp [unspelled_ne_next, Spelled, h]

theorem exec_running {s : State} {i : Instr} (h : s.Running) (hs : Spelled s.params i) :
    exec i s = .next (effect i s) := by
  rw [exec_eq_guarded hs, guarded_running h]

theorem exec_halted {s : State} {r : Fault} (h : s.halted = some r) (i : Instr) : exec i s = .fault r := by
  rcases spelled_or s.params i with hs | ⟨op, rfl, hs⟩
  · rw [exec_eq_guarded hs, guarded_halted h]
  · rw [exec_unlisted hs, unspelled_halted h]

/-- What a stimulus puts at the ports (R85). -/
theorem stimulusAnswer_form (st : Stimulus) (s : State) :
    ∃ q r, stimulusAnswer st s = { s with attemptIn := q, frameIn := r } := by
  cases st <;> exact ⟨_, _, rfl⟩

/-- Where a step that answers next comes from: an instruction run in the state with the issue consumed and the answer of
a stimulus at its port, or a refusal of the command port recorded in a running state. -/
theorem step_next {s t : State} (h : step s = .next t) :
    ∃ l q r, (∃ i, exec i { s with issued := l, attemptIn := q, frameIn := r } = .next t) ∨
      (∃ c, s.Running ∧ t = { s with issued := l, refused := some c }) := by
  unfold step fetch at h
  rcases hs : s.issued with _ | ⟨it, rest⟩ <;> simp only [hs] at h
  · exact ⟨s.issued, s.attemptIn, s.frameIn, .inl ⟨_, h⟩⟩
  unfold fetchIssue at h
  split at h
  · next i t' hf =>
    split at hf
    · cases hf
    · cases hf
    · cases hf
    · split at hf
      · next st _ =>
        unfold fetchStimulus at hf
        split at hf
        · cases hf
          exact ⟨rest, s.attemptIn, s.frameIn, .inl ⟨_, h⟩⟩
        · split at hf
          · cases hf
            obtain ⟨q, r, ha⟩ := stimulusAnswer_form st { s with issued := rest }
            rw [ha] at h
            exact ⟨rest, q, r, .inl ⟨_, h⟩⟩
          · cases hf
      · cases hf
        exact ⟨rest, s.attemptIn, s.frameIn, .inl ⟨_, h⟩⟩
      · cases hf
        exact ⟨rest, s.attemptIn, s.frameIn, .inl ⟨_, h⟩⟩
  · next o hf =>
    subst h
    split at hf
    · next c _ =>
      injection hf with hf
      obtain ⟨hr, rfl⟩ := guarded_next.1 hf
      exact ⟨rest, s.attemptIn, s.frameIn, .inr ⟨_, hr, rfl⟩⟩
    · injection hf with hf
      exact absurd hf (unspelled_ne_next _ _ _)
    · injection hf with hf
      exact absurd hf (unspelled_ne_next _ _ _)
    · split at hf
      · next st _ =>
        unfold fetchStimulus at hf
        split at hf
        · cases hf
        · next h1 =>
          split at hf
          · cases hf
          · cases hf
            simp only [Bool.or_eq_true, not_or, Option.isSome_iff_ne_none, not_not] at h1
            exact ⟨rest, s.attemptIn, s.frameIn, .inr ⟨.wrongMode s.mode, (halted_none_iff _).1 h1.1, rfl⟩⟩
      · cases hf
      · cases hf

/-- What a step fetches when the issue is a stimulus that can be spelled. -/
theorem fetch_spelled_stimulus {s : State} {st : Stimulus} {rest : List Issue} (hi : s.issued = .stimulus st :: rest)
    (hw : st.wf = true) : fetch s = fetchStimulus st { s with issued := rest } := by
  simp [fetch, hi, fetchIssue, decodeIssue, hw]

/-- A stimulus of the right MODE runs STEP with its answer at the port (R85). -/
theorem step_stimulus {s : State} {st : Stimulus} {rest : List Issue} (hi : s.issued = .stimulus st :: rest)
    (hw : st.wf = true) (hr : s.Running) (hc : s.configFails = false) (hf : stimulusFits st s.mode = true) :
    step s = exec .step (stimulusAnswer st { s with issued := rest }) := by
  have h1 : State.halted { s with issued := rest } = none := halted_of_running hr
  have h2 : State.configFails { s with issued := rest } = false := hc
  simp [step, fetch_spelled_stimulus hi hw, fetchStimulus, h1, h2, hf]

/-- A stimulus of the wrong MODE is refused (R85, R306). -/
theorem step_stimulus_wrong {s : State} {st : Stimulus} {rest : List Issue} (hi : s.issued = .stimulus st :: rest)
    (hw : st.wf = true) (hr : s.Running) (hc : s.configFails = false) (hf : stimulusFits st s.mode = false) :
    step s = .next { s with issued := rest, refused := some (.wrongMode s.mode) } := by
  have h1 : State.halted { s with issued := rest } = none := halted_of_running hr
  have h2 : State.configFails { s with issued := rest } = false := hc
  simp [step, fetch_spelled_stimulus hi hw, fetchStimulus, h1, h2, hf, State.refuse]

/-- A run is its first step and the run after it. -/
theorem run_succ {s t : State} (h : step s = .next t) (k : Nat) :
    Host.Core.run core (k + 1) s = Host.Core.run core k t := by
  have h' : core.step s = .next t := h
  simp only [Host.Core.run, h']

theorem configFails_locked {s : State} (h : s.regLocked = true) : s.configFails = false := by
  simp [State.configFails, h]

theorem configFails_ok {s : State} (h : s.ConfigOk) : s.configFails = false := by
  simp [State.configFails, show configCheck s = none from h]

end Sys2Proof.Machine
end

