-- ==== Sys2Proof/Laws/PerInstr.lean ====
section
/-! SUPPORT. A statement about every instruction as syntax, one lemma per constructor: the code an instruction is spelled
with stands in R79's table, so no instruction is spelled with a reserved code (R81). -/

namespace Sys2Proof.Laws.TableCode

/-- The code of a command is the table's: it is not reserved (R79, R81). -/
def Statement (i : Instr) : Prop :=
  ∀ code ops, encode i = .command code ops → (opcodeOf code).isSome = true

/-- A command's code is read off its encoding. -/
theorem of_code {i : Instr} {c : Byte} {o : List Nat} (h : encode i = .command c o)
    (hc : (opcodeOf c).isSome = true) : Statement i := by
  intro code ops he
  rw [h] at he
  cases he
  exact hc

/-- A frame is spelled with no command code. -/
theorem of_frame {i : Instr} {f : Frame} (h : encode i = .frame f) : Statement i := by
  intro code ops he
  rw [h] at he
  cases he

theorem extract (id mask : Word) (sh : BitVec 5) : Statement (.extract id mask sh) := of_code rfl (by decide)
theorem pack (v mask : Word) (sh : BitVec 5) : Statement (.pack v mask sh) := of_code rfl (by decide)
theorem decodeId (id : Word) : Statement (.decodeId id) := of_code rfl (by decide)
theorem encodeId (p t s : Word) : Statement (.encodeId p t s) := of_code rfl (by decide)
theorem classify (id : Word) : Statement (.classify id) := of_code rfl (by decide)
theorem countError : Statement .countError := of_code rfl (by decide)
theorem clearErrors : Statement .clearErrors := of_code rfl (by decide)
theorem guardedAttempt (op : Op) : Statement (.guardedAttempt op) := of_code rfl (by decide)
theorem initStep : Statement .initStep := of_code rfl (by decide)
theorem recognize (i : Nat) (t : Addr) : Statement (.recognize i t) := of_code rfl (by decide)
theorem processFrame (i : Nat) (t : Addr) (p : List Byte) : Statement (.processFrame i t p) := of_code rfl (by decide)
theorem shouldRender (i : Nat) : Statement (.shouldRender i) := of_code rfl (by decide)
theorem canRender (i : Nat) : Statement (.canRender i) := of_code rfl (by decide)
theorem render (i : Nat) : Statement (.render i) := of_code rfl (by decide)
theorem setUnits (i : Nat) (u : Units) : Statement (.setUnits i u) := of_code rfl (by decide)
theorem getName (i : Nat) : Statement (.getName i) := of_code rfl (by decide)
theorem regGet (n : Nat) : Statement (.regGet n) := of_code rfl (by decide)
theorem regSet (n c : Nat) : Statement (.regSet n c) := of_code rfl (by decide)
theorem poll : Statement .poll := of_code rfl (by decide)
theorem dispatch (f : Frame) : Statement (.dispatch f) := of_code rfl (by decide)
theorem cycle : Statement .cycle := of_code rfl (by decide)
theorem arbitrate : Statement .arbitrate := of_code rfl (by decide)
theorem step : Statement .step := of_code rfl (by decide)
theorem frameUnits (f : Frame) : Statement (.frameUnits f) := of_frame rfl
theorem frameChannel (f : Frame) : Statement (.frameChannel f) := of_frame rfl
theorem frameIgnored (f : Frame) : Statement (.frameIgnored f) := of_frame rfl

end Sys2Proof.Laws.TableCode
end

