-- ==== Sys2Proof/Tests/Slice0.lean ====
section
/-! SUPPORT. Tests of this model: the words of spec/30_encoding.md decoded, the vectors of spec/95_test_vectors.md (their
expected results are that file's, not the model's), the well-formedness checks, and a witness for the hypotheses of every
statement. -/

namespace Sys2Proof.Tests

open Sys2Proof Sys2Proof.Machine Sys2Proof.Claims

/-! ## Helpers -/

/-- The next state of an outcome, if it is one. -/
def nextOf : Out → Option State
  | .next t => some t
  | .fault _ => none
  | .refused _ => none

/-- What a command returned from a state. -/
def resultOf (i : Instr) (s : State) : Option Result := (nextOf (exec i s)).bind (·.ret)

/-- The events an instruction emitted from a state whose stream is empty. -/
def eventsOf (i : Instr) (s : State) : Option (List Event) := (nextOf (exec i s)).map (·.events)

/-- HAS_DATA, DIRTY, VALUE and UNITS of slot `i` afterwards. -/
def slotOf (i : Nat) (o : Out) : Option (Bool × Bool × Value × Units) :=
  (nextOf o).bind fun t => t.slots[i]?.map fun c => (c.hasData, c.dirty, c.value, c.units)

/-- MODE = LOOP after a clean boot, all channels empty. -/
def looping : State := { State.reset with mode := .loop, regLocked := true }

/-- `s` with a slot's channel state set. -/
def chan (s : State) (i : Nat) (h d : Bool) (v : Value) (u : Units) : State :=
  s.modSlot i fun c => { c with hasData := h, dirty := d, value := v, units := u }

/-- LOOP with slot 0 holding 0x8C. -/
def warm (d : Bool) (u : Units) : State := chan looping 0 true d [0x8C#8] u

/-- LOOP with both slots holding data, as in 95_test_vectors.md section 3.6. -/
def both (d0 d1 : Bool) (l : Option Nat) : State :=
  { chan (warm d0 .metric) 1 true d1 [0x01#8, 0x02#8] .metric with last := l }

/-- Reset with answers at the attempt port. -/
def answered (l : List AttemptResult) : State := { State.reset with attemptIn := l }

/-- The frames of 95_test_vectors.md section 1. -/
def tempFrame : Frame := ⟨0x10246040#32, [0x8C#8]⟩
def proxFrame : Frame := ⟨0x1048A040#32, [0x01#8, 0x20#8]⟩
def unitsFrame (n : Byte) : Frame := ⟨0x10602040#32, [n]⟩
def otherFrame : Frame := ⟨0x10024040#32, [1#8, 2#8]⟩

/-- A payload one byte longer than the port carries. -/
def longPayload : List Byte := List.replicate 9 0#8

/-! ## Well-formedness: an ill-formed term for each check -/

theorem test_wf_accepts_eight_bytes : (Instr.processFrame 0 0#13 (List.replicate 8 0#8)).wf = true := by decide
theorem test_wf_refuses_processFrame : (Instr.processFrame 0 0#13 longPayload).wf = false := by decide
theorem test_wf_refuses_dispatch : (Instr.dispatch ⟨0#32, longPayload⟩).wf = false := by decide
theorem test_wf_refuses_frameUnits : (Instr.frameUnits ⟨0#32, longPayload⟩).wf = false := by decide
theorem test_wf_refuses_frameChannel : (Instr.frameChannel ⟨0#32, longPayload⟩).wf = false := by decide
theorem test_wf_refuses_frameIgnored : (Instr.frameIgnored ⟨0#32, longPayload⟩).wf = false := by decide
theorem test_wf_refuses_stimulus : (Stimulus.frame ⟨0#32, longPayload⟩).wf = false := by decide

/-! ## Decoding: the codes of R79 and the identifiers of 95_test_vectors.md section 1, written out in bits -/

theorem test_decode_extract :
    decodeCommand 0b00000001#8 [0x10024040, 0x03FFE000, 13] = .ok (.extract 0x10024040#32 0x03FFE000#32 13#5) := by
  rfl
theorem test_decode_pack :
    decodeCommand 0b00000010#8 [0x123, 0x03FFE000, 13] = .ok (.pack 0x123#32 0x03FFE000#32 13#5) := by rfl
theorem test_decode_decodeId : decodeCommand 0b00000011#8 [0x10024040] = .ok (.decodeId 0x10024040#32) := by rfl
theorem test_decode_encodeId :
    decodeCommand 0b00000100#8 [4, 0x123, 0x40] = .ok (.encodeId 4#32 0x123#32 0x40#32) := by rfl
theorem test_decode_classify : decodeCommand 0b00000101#8 [0x10246040] = .ok (.classify 0x10246040#32) := by rfl
theorem test_decode_countError : decodeCommand 0b00010000#8 [] = .ok .countError := by rfl
theorem test_decode_clearErrors : decodeCommand 0b00010001#8 [] = .ok .clearErrors := by rfl
theorem test_decode_guardedAttempt : decodeCommand 0b00010010#8 [2, 1] = .ok (.guardedAttempt (.filter 1)) := by rfl
theorem test_decode_initStep : decodeCommand 0b00010011#8 [] = .ok .initStep := by rfl
theorem test_decode_recognize : decodeCommand 0b00100000#8 [0, 0x123] = .ok (.recognize 0 0x123#13) := by rfl
theorem test_decode_processFrame :
    decodeCommand 0b00100001#8 [1, 0x245, 2, 1, 0x20] = .ok (.processFrame 1 0x245#13 [1#8, 0x20#8]) := by rfl
theorem test_decode_shouldRender : decodeCommand 0b00100010#8 [1] = .ok (.shouldRender 1) := by rfl
theorem test_decode_canRender : decodeCommand 0b00100011#8 [1] = .ok (.canRender 1) := by rfl
theorem test_decode_render : decodeCommand 0b00100100#8 [1] = .ok (.render 1) := by rfl
theorem test_decode_setUnits : decodeCommand 0b00100101#8 [0, 1] = .ok (.setUnits 0 .imperial) := by rfl
theorem test_decode_getName : decodeCommand 0b00100110#8 [1] = .ok (.getName 1) := by rfl
theorem test_decode_regGet : decodeCommand 0b00110000#8 [1000] = .ok (.regGet 1000) := by rfl
theorem test_decode_regSet : decodeCommand 0b00110001#8 [1, 0] = .ok (.regSet 1 0) := by rfl
theorem test_decode_poll : decodeCommand 0b01000000#8 [] = .ok .poll := by rfl
theorem test_decode_dispatch :
    decodeCommand 0b01000001#8 [0x10246040, 1, 0x8C] = .ok (.dispatch tempFrame) := by rfl
theorem test_decode_cycle : decodeCommand 0b01000010#8 [] = .ok .cycle := by rfl
theorem test_decode_arbitrate : decodeCommand 0b01010000#8 [] = .ok .arbitrate := by rfl
theorem test_decode_step : decodeCommand 0b01100000#8 [] = .ok .step := by rfl
/-- priority 100, target 0001100000001, sender 0000001000000 (R70): ID_UNITS. -/
theorem test_decode_frameUnits :
    decodeIssue Config.vectors (.frame ⟨0b00010000011000000010000001000000#32, [1#8]⟩) =
      .ok (.frameUnits (unitsFrame 1#8)) := by rfl
/-- priority 100, target 0000100100011, sender 0000001000000 (R70): ID_TEMP. -/
theorem test_decode_frameChannel :
    decodeIssue Config.vectors (.frame ⟨0b00010000001001000110000001000000#32, [0x8C#8]⟩) =
      .ok (.frameChannel tempFrame) := by rfl
/-- priority 100, target 0000000010010, sender 0000001000000 (R70): ID_OTHER. -/
theorem test_decode_frameIgnored :
    decodeIssue Config.vectors (.frame ⟨0b00010000000000100100000001000000#32, [1#8, 2#8]⟩) =
      .ok (.frameIgnored otherFrame) := by rfl
/-- 95 section 3.7: codes 0x07 and 0x61 spell nothing. -/
theorem test_decode_unknown :
    decodeCommand 0x07#8 [] = .error (.unknownOp 0x07#8) ∧ decodeCommand 0x61#8 [] = .error (.unknownOp 0x61#8) := by
  exact ⟨rfl, rfl⟩
/-- A shift of 32, a target of 14 bits and a `len` of 9 cannot be spelled (R83). -/
theorem test_decode_bad_operands :
    decodeCommand 0x01#8 [0, 0, 32] = .error (.badOperands 0x01#8) ∧
    decodeCommand 0x20#8 [0, 0x2000] = .error (.badOperands 0x20#8) ∧
    decodeCommand 0x21#8 [0, 0, 9, 0, 0, 0, 0, 0, 0, 0, 0, 0] = .error (.badOperands 0x21#8) := by
  exact ⟨rfl, rfl, rfl⟩
/-- R84's syntax. -/
theorem test_text : instrText (.setUnits 0 .imperial) = "SET_UNITS 0, IMPERIAL" := by rfl

/-! ## Frame codec (95 section 3.1) -/

theorem test_extract_low_bits_discarded :
    resultOf (.extract 0xDEADBEEF#32 0x000000FF#32 4#5) State.reset = some (.word 0xE#32) := by rfl
theorem test_extract_largest_shift :
    resultOf (.extract 0xDEADBEEF#32 0xFFFFFFFF#32 31#5) State.reset = some (.word 1#32) := by rfl
theorem test_pack_truncates : resultOf (.pack 9#32 0x1C000000#32 26#5) State.reset = some (.word 0x04000000#32) := by
  rfl
theorem test_pack_drops_past_bit_31 :
    resultOf (.pack 3#32 0xFFFFFFFF#32 31#5) State.reset = some (.word 0x80000000#32) := by rfl
theorem test_decodeId :
    resultOf (.decodeId 0xDEADBEEF#32) State.reset = some (.ident ⟨7#3, 0x156D#13, 0x1EEF#13⟩) := by rfl
theorem test_encodeId : resultOf (.encodeId 9#32 0x2123#32 0x3FFF#32) State.reset = some (.word 0x04247FFF#32) := by rfl
theorem test_classify_units_bit_31 :
    resultOf (.classify 0x90602040#32) State.reset = some (.frameClass .units) := by rfl
theorem test_classify_two_slots :
    (classOf { Config.vectors with
      slots := Config.vectors.slots.map fun c => { c with acceptAddr := 0x123 } } 0x10246040#32) =
      .channels [0, 1] := by rfl

/-! ## Watchdog and initialisation (95 section 3.2) -/

theorem test_countError_at_limit :
    (nextOf (exec .countError { State.reset with errCnt := 2 })).map
      (fun t => (t.errCnt, t.wdtState, t.mode, t.events, t.hwReset)) =
      some (3, .reset, .reset, [.hwReset], true) := by rfl
theorem test_countError_below :
    (nextOf (exec .countError State.reset)).map (fun t => (t.errCnt, t.wdtState, t.events)) =
      some (1, .running, []) := by rfl
theorem test_clearErrors :
    (nextOf (exec .clearErrors { State.reset with errCnt := 2 })).map (·.errCnt) = some 0 := by rfl
/-- 95 section 3.2's FAIL, OK, the step of the FAIL: counted, in the backoff half, and the driver stays at the port. -/
theorem test_guardedAttempt_fails :
    (nextOf (exec (.guardedAttempt .busBegin) (answered [.fail]))).map (fun t => (t.errCnt, t.mode, t.events, t.issued)) =
      some (1, .init .busBegin .backoff, [.attempt .busBegin .busBegin], [.command 0x12#8 [0, 0]]) := by rfl
/-- The last FAIL of FAIL, FAIL, FAIL: HwReset, no Backoff, and the driver is gone. -/
theorem test_guardedAttempt_resets :
    (nextOf (exec (.guardedAttempt .busBegin) { answered [.fail] with errCnt := 2 })).map
      (fun t => (t.errCnt, t.mode, t.events, t.issued)) =
      some (3, .reset, [.attempt .busBegin .busBegin, .hwReset], []) := by rfl
/-- The call of FILTER 1 is configureReceiveFilter(1, 0x0048A000, true). -/
theorem test_initStep_filter :
    (nextOf (exec .initStep { answered [.ok] with mode := .init (.filter 1) .attempt })).map
      (fun t => (t.mode, t.events)) =
      some (.init (.filter 2) .attempt,
        [.attempt (.filter 1) (.configureReceiveFilter 1 (some 0x0048A000#32) true)]) := by rfl
theorem test_initStep_fails :
    (nextOf (exec .initStep (answered [.fail]))).map (fun t => (t.errCnt, t.mode)) =
      some (1, .init .busBegin .backoff) := by rfl

/-! ## Channels (95 section 3.3) -/

theorem test_recognize :
    (resultOf (.recognize 0 0x123#13) looping, resultOf (.recognize 0 0x124#13) looping) =
      (some (.bool true), some (.bool false)) := by rfl
theorem test_processFrame_zero_first_value :
    slotOf 0 (exec (.processFrame 0 0x123#13 [0#8]) looping) = some (true, true, [0#8], .metric) := by rfl
theorem test_processFrame_same_value :
    slotOf 0 (exec (.processFrame 0 0x123#13 [0x8C#8, 0xAA#8, 0xBB#8]) (warm false .metric)) =
      some (true, false, [0x8C#8], .metric) := by rfl
theorem test_shouldRender :
    (resultOf (.shouldRender 0) (warm true .metric), resultOf (.shouldRender 0) (warm false .metric)) =
      (some (.bool true), some (.bool false)) := by rfl
theorem test_canRender :
    (resultOf (.canRender 0) (warm false .metric), resultOf (.canRender 1) looping) =
      (some (.bool true), some (.bool false)) := by rfl
theorem test_render :
    (eventsOf (.render 0) (warm false .imperial), slotOf 0 (exec (.render 0) (warm true .metric))) =
      (some [.render 0 [0x8C#8] .imperial], some (true, false, [0x8C#8], .metric)) := by rfl
/-- Row F1 of 95 section 3.7, and P6: the fault is recorded and no step follows. -/
theorem test_render_without_data :
    (nextOf (exec (.render 0) looping)).map (fun t => (t.fault, t.events, nextOf (step t))) =
      some (some (.renderWithoutData 0), [], none) := by rfl
theorem test_setUnits_same_units :
    slotOf 0 (exec (.setUnits 0 .metric) (warm false .metric)) = some (true, true, [0x8C#8], .metric) := by rfl
theorem test_setUnits_without_data :
    slotOf 0 (exec (.setUnits 0 .imperial) looping) = some (false, false, [], .imperial) := by rfl
theorem test_getName : resultOf (.getName 1) looping = some (.name "ProximityAssist") := by rfl

/-! ## Registry (95 section 3.4) -/

theorem test_regGet :
    (resultOf (.regGet 1) looping, resultOf (.regGet 2) looping) =
      (some (.lookup (some (some 1))), some (.lookup none)) := by rfl
theorem test_regSet :
    (nextOf (exec (.regSet 0 7) (State.beforeAssembly Config.vectors .metric))).map (·.handles) = some [7] := by rfl
/-- After the first step, index 5: REG_SET_AFTER_START comes first. -/
theorem test_regSet_order :
    (nextOf (exec (.regSet 5 0) looping)).map (·.refused) = some (some (.regSetAfterStart 5)) := by rfl

/-! ## Dispatch and the loop (95 section 3.5) -/

theorem test_poll :
    resultOf .poll { looping with frameIn := [some tempFrame] } = some (.polled (some tempFrame)) := by rfl
theorem test_dispatch_last_slot :
    slotOf 1 (exec (.dispatch proxFrame) looping) = some (true, true, [0x01#8, 0x20#8], .metric) := by rfl
theorem test_dispatch_too_short :
    slotOf 1 (exec (.dispatch ⟨0x1048A040#32, [1#8]⟩) looping) = some (false, false, [], .metric) := by rfl
theorem test_cycle :
    (nextOf (exec .cycle { looping with frameIn := [some tempFrame] })).map (fun t => (t.last, t.events)) =
      some (some 0, [.render 0 [0x8C#8] .metric]) := by rfl
theorem test_cycle_wrong_mode :
    (nextOf (exec .cycle State.reset)).map (·.refused) = some (some (.wrongMode (.init .busBegin .attempt))) := by rfl
/-- The first step of P1. -/
theorem test_step :
    (nextOf (step (answered [.ok]))).map (fun t => (t.mode, t.regLocked, t.events)) =
      some (.init (.mask 0) .attempt, true, [.attempt .busBegin .busBegin]) := by rfl
/-- Slot 1 unset at the first STEP: CONFIG_INVALID and no event. -/
theorem test_step_slot_unset :
    (nextOf (step (State.reset.modSlot 1 fun c => { c with reg := none }))).map
      (fun t => (t.refused, t.events, t.regLocked)) = some (some (.configInvalid .slotUnset), [], false) := by rfl
/-- E10: slot 0 with data becomes fresh in the new units, slot 1 without data does not. -/
theorem test_frameUnits :
    (slotOf 0 (exec (.frameUnits (unitsFrame 1#8)) (warm false .metric)),
      slotOf 1 (exec (.frameUnits (unitsFrame 1#8)) (warm false .metric)),
      eventsOf (.frameUnits (unitsFrame 1#8)) (warm false .metric)) =
      (some (true, true, [0x8C#8], .imperial), some (false, false, [], .imperial),
        some [.saveUnits .imperial]) := by rfl
/-- The high nibble is ignored; an unmapped nibble does nothing. -/
theorem test_frameUnits_nibble :
    (eventsOf (.frameUnits (unitsFrame 0xF0#8)) looping, eventsOf (.frameUnits (unitsFrame 7#8)) looping) =
      (some [.saveUnits .metric], some []) := by rfl
theorem test_frameChannel :
    slotOf 0 (exec (.frameChannel tempFrame) looping) = some (true, true, [0x8C#8], .metric) := by rfl
theorem test_frameIgnored :
    (slotOf 0 (exec (.frameIgnored otherFrame) looping), eventsOf (.frameIgnored otherFrame) looping) =
      (some (false, false, [], .metric), some []) := by rfl

/-! ## Arbitration (95 section 3.6) -/

/-- Rows 25 to 27: both fresh, only slot 0 is shown. -/
theorem test_arbitrate_both_fresh :
    (nextOf (exec .arbitrate (both true true (some 1)))).map
      (fun t => (t.last, t.events, t.slots.map (·.dirty))) =
      some (some 0, [.render 0 [0x8C#8] .metric], [false, true]) := by rfl
/-- Row 14 shows nothing; row 2 clears. -/
theorem test_arbitrate_quiet_and_clear :
    (eventsOf .arbitrate (both false false (some 0)), eventsOf .arbitrate { looping with last := some 0 }) =
      (some [], some [.clear]) := by rfl

/-! ## Stimuli, reset and readings -/

/-- 95 section 3.2: IDLE in INIT is refused. -/
theorem test_stimulus_wrong_mode :
    (nextOf (step { State.reset with regLocked := true, issued := [.stimulus .idle] })).map (·.refused) =
      some (some (.wrongMode (.init .busBegin .attempt))) := by rfl
/-- P3 step 7: the broadcast pseudo-instruction. -/
theorem test_stimulus_units :
    (nextOf (step { both false false (some 0) with
      issued := [.stimulus (.unitsBcast 4#32 0x40#32 1#8)] })).map (fun t => (t.events, t.slots.map (·.dirty))) =
      some ([.saveUnits .imperial, .render 0 [0x8C#8] .imperial], [false, true]) := by rfl
/-- A stimulus of 9 bytes is not spelled, and a waiting answer of 9 bytes is carried as its first 8 (logs 4 and 6). -/
theorem test_long_payload :
    (nextOf (step { looping with issued := [.stimulus (.frame ⟨0#32, longPayload⟩)] })).isNone ∧
      resultOf .poll { looping with frameIn := [some ⟨0#32, longPayload⟩] } =
        some (.polled (some ⟨0#32, List.replicate 8 0#8⟩)) := by exact ⟨rfl, rfl⟩
/-- A reboot after HwReset gives the reset state (R400). -/
theorem test_reboot :
    ({ State.reset with mode := .reset, wdtState := .reset, errCnt := 3, events := [.hwReset] } : State).reboot
      .metric = State.reset := by rfl
/-- 95 section 3.3's readings: 0x8C, 0x01 and 0xFF (twice Celsius, Fahrenheit). -/
theorem test_readings :
    [0x8C#8, 0x01#8, 0xFF#8].map (fun b => (celsiusTwice b, fahrenheit b)) = [(60, 86), (-79, -39), (175, 190)] := by
  rfl

/-! ## Witnesses: a state and operands that meet the hypotheses of each statement, each clause at a boundary -/

/-- Reset's state has a step: the hypothesis of the statements that need no more. -/
theorem witness_running : State.reset.Running ∧ looping.Running := by decide

theorem witness_ExtractReturnsMaskedShift : State.reset.Running := by decide
theorem witness_PackReturnsShiftedMasked : State.reset.Running := by decide
theorem witness_DecodeIdReturnsFields : State.reset.Running := by decide
theorem witness_EncodeIdReturnsFieldsInPlace : State.reset.Running := by decide
theorem witness_ClassifyFollowsMap_units :
    State.reset.Running ∧ targetOf 0x90602040#32 = State.reset.params.addrUnits := by decide
/-- The last slot of the list accepts the target. -/
theorem witness_ClassifyFollowsMap_channel :
    State.reset.Running ∧ targetOf 0x1048A040#32 ≠ State.reset.params.addrUnits ∧
      ∃ c ∈ State.reset.slots, c.const.acceptAddr = targetOf 0x1048A040#32 := by decide
theorem witness_ClassifyFollowsMap_ignored :
    State.reset.Running ∧ targetOf 0xFFFFFFFF#32 ≠ State.reset.params.addrUnits ∧
      ∀ c ∈ State.reset.slots, c.const.acceptAddr ≠ targetOf 0xFFFFFFFF#32 := by decide
theorem witness_MaskRoundTrip :
    (0x03FFE000#32).toNat % 2 ^ (13#5).toNat = 0 ∧ (0x80000000#32).toNat % 2 ^ (31#5).toNat = 0 := by decide
/-- Two identifiers that differ in bits 31, 26 and 12 and agree on bits 13 to 25. -/
theorem witness_UnroutedBitsIgnored :
    (⟨0x10246040#32, [1#8]⟩ : Frame).payload = (⟨0x94247040#32, [1#8]⟩ : Frame).payload ∧
      ∀ k, 13 ≤ k → k < 26 → (0x10246040#32).getLsbD k = (0x94247040#32).getLsbD k := by
  refine ⟨rfl, fun k h1 h2 => ?_⟩
  interval_cases k <;> rfl

theorem witness_CountErrorCountsThenResets_below :
    State.reset.Running ∧ State.reset.errCnt + 1 < 2 ^ State.reset.params.cntW ∧
      State.reset.errCnt + 1 < State.reset.params.wdtLimit := by decide
theorem witness_CountErrorCountsThenResets_at_limit :
    let s : State := { State.reset with errCnt := 2 }
    s.Running ∧ s.errCnt + 1 < 2 ^ s.params.cntW ∧ s.params.wdtLimit ≤ s.errCnt + 1 ∧
      s.errCnt < s.params.wdtLimit := by decide
theorem witness_ClearErrorsZeroes : State.reset.Running := by decide
theorem witness_GuardedAttempt_backoff :
    let s : State := { State.reset with mode := .init (.filter 2) .backoff }
    s.Running ∧ opPhase (.filter 2) ∈ phaseList s.params ∧ s.mode = .init (opPhase (.filter 2)) .backoff := by decide
theorem witness_GuardedAttempt_ok :
    (answered [.ok]).Running ∧ opPhase .busBegin ∈ phaseList (answered [.ok]).params ∧
      (drawFor .busBegin (answered [.ok])).1 = .ok ∧ (answered [.ok]).mode = .init (opPhase .busBegin) .attempt := by
  decide
theorem witness_GuardedAttempt_ok_elsewhere :
    let s : State := { looping with attemptIn := [.ok] }
    s.Running ∧ opPhase .busBegin ∈ phaseList s.params ∧ (drawFor .busBegin s).1 = .ok ∧
      ∀ sub, s.mode ≠ .init (opPhase .busBegin) sub :=
  ⟨by decide, by decide, by decide, fun sub h => by cases h⟩
theorem witness_GuardedAttempt_fail_below :
    let s : State := { answered [.fail] with errCnt := 1 }
    s.Running ∧ opPhase .busBegin ∈ phaseList s.params ∧ (drawFor .busBegin s).1 = .fail ∧
      s.mode ≠ .init (opPhase .busBegin) .backoff ∧ s.errCnt + 1 < s.params.wdtLimit := by decide
theorem witness_GuardedAttempt_fail_at_limit :
    let s : State := { answered [.fail] with errCnt := 2 }
    s.Running ∧ opPhase .busBegin ∈ phaseList s.params ∧ (drawFor .busBegin s).1 = .fail ∧
      s.mode ≠ .init (opPhase .busBegin) .backoff ∧ s.params.wdtLimit ≤ s.errCnt + 1 := by decide
theorem witness_GuardedAttempt_ends :
    let s : State := { answered [.fail] with issued := [driverIssue .busBegin] }
    s.Running ∧ opPhase .busBegin ∈ phaseList s.params ∧ s.issued = driverIssue .busBegin :: [] ∧
      s.errCnt < s.params.wdtLimit := by decide
/-- The configuration has one mask slot, so MASK 1 is no operation of it. -/
theorem witness_GuardedAttempt_unlisted :
    State.reset.Running ∧ opPhase (.mask 1) ∉ phaseList State.reset.params := by decide
/-- No answer waits: the free answer of the draw counter is the one drawn. -/
theorem witness_drawFor_free :
    State.reset.attemptIn = [] ∧ (drawFor .busBegin State.reset).1 = Config.freeAttempt State.reset.draws := ⟨rfl, rfl⟩
theorem witness_InitAttemptSuccessAdvances_last :
    let s : State := { answered [.ok] with mode := .init .displayBegin .attempt }
    s.Running ∧ s.mode = .init .displayBegin .attempt ∧ (drawFor (Phase.op .displayBegin) s).1 = .ok := by decide
theorem witness_InitAttemptSuccessAdvances_next :
    let s : State := answered [.ok]
    s.Running ∧ s.mode = .init .busBegin .attempt ∧ (drawFor (Phase.op .busBegin) s).1 = .ok ∧
      nextPhase s.params .busBegin = some (.mask 0) := by decide
theorem witness_InitAttemptFailureCounts_below :
    let s : State := answered [.fail]
    s.Running ∧ s.mode = .init .busBegin .attempt ∧ (drawFor (Phase.op .busBegin) s).1 = .fail ∧
      s.errCnt + 1 < s.params.wdtLimit := by decide
theorem witness_InitAttemptFailureCounts_at_limit :
    let s : State := { answered [.fail] with errCnt := 2, mode := .init .displayBegin .attempt }
    s.Running ∧ s.mode = .init .displayBegin .attempt ∧ (drawFor (Phase.op .displayBegin) s).1 = .fail ∧
      s.params.wdtLimit ≤ s.errCnt + 1 := by decide
theorem witness_BackoffReturnsToAttempt :
    let s : State := { State.reset with mode := .init (.mask 0) .backoff }
    s.Running ∧ s.mode = .init (.mask 0) .backoff := by decide
theorem witness_WrongModeRefused :
    looping.Running ∧ looping.mode = .loop ∧ State.reset.Running ∧ State.reset.mode = .init .busBegin .attempt := by
  decide
theorem witness_PhasesRunInOrder :
    (phaseList State.reset.params)[0]? = some .busBegin ∧ (phaseList State.reset.params)[6]? = some .displayBegin := by
  decide
theorem witness_AttemptCallArguments :
    State.reset.params.maskValue[0]? = some 0x03FFE000#32 ∧
      (∃ a, [0x1FFF][0]? = some a ∧ a < 2 ^ 13) ∧ State.reset.params.filterAddr[2]? = some 0x301 := by
  exact ⟨rfl, ⟨0x1FFF, rfl, by decide⟩, rfl⟩

theorem witness_ChannelQueriesAnswer : looping.Running ∧ ∃ c, looping.slots[1]? = some c :=
  ⟨by decide, _, rfl⟩
theorem witness_ProcessFrameStoresValue_rejects :
    looping.Running ∧ ∃ c, looping.slots[1]? = some c ∧ runDecoder c.const.decoder [1#8] = none :=
  ⟨by decide, _, rfl, rfl⟩
theorem witness_ProcessFrameStoresValue_takes :
    looping.Running ∧
      ∃ c, looping.slots[1]? = some c ∧ runDecoder c.const.decoder [1#8, 2#8] = some [1#8, 2#8] :=
  ⟨by decide, _, rfl, rfl⟩
theorem witness_RenderShowsAndCleans :
    (warm true .metric).Running ∧ ∃ c, (warm true .metric).slots[0]? = some c ∧ c.hasData = true :=
  ⟨by decide, _, rfl, rfl⟩
theorem witness_RenderWithoutDataFaults :
    looping.Running ∧ ∃ c, looping.slots[1]? = some c ∧ c.hasData = false :=
  ⟨by decide, _, rfl, rfl⟩
theorem witness_SetUnitsMarksAvailable :
    (warm false .metric).Running ∧ ∃ c, (warm false .metric).slots[0]? = some c :=
  ⟨by decide, _, rfl⟩
theorem witness_BadSlotRefused : looping.Running ∧ looping.slots.length ≤ 2 := by decide

theorem witness_RegGetBoundsChecked :
    looping.Running ∧ (∃ c, looping.slots[1]? = some c) ∧ looping.slots.length ≤ 2 :=
  ⟨by decide, ⟨_, rfl⟩, by decide⟩
theorem witness_RegSetWritesUnsetSlot :
    let s := State.beforeAssembly Config.vectors .metric
    s.Running ∧ s.regLocked = false ∧ ∃ c, s.slots[1]? = some c ∧ c.reg = none :=
  ⟨by decide, rfl, _, rfl, rfl⟩
theorem witness_RegSetRefusals_locked : looping.Running ∧ looping.regLocked = true := by decide
theorem witness_RegSetRefusals_range :
    State.reset.Running ∧ State.reset.regLocked = false ∧ State.reset.slots.length ≤ 2 := by decide
theorem witness_RegSetRefusals_twice :
    State.reset.Running ∧ State.reset.regLocked = false ∧
      ∃ c, State.reset.slots[1]? = some c ∧ c.reg ≠ none :=
  ⟨by decide, rfl, _, rfl, by decide⟩

theorem witness_PollTakesOneAnswer :
    (({ looping with frameIn := [some tempFrame] } : State).Running ∧ tempFrame.payload.length ≤ 8) ∧
      looping.Running ∧ looping.frameIn = [] := by decide
/-- An answer one byte longer than the port carries. -/
theorem witness_PollTakesOneAnswer_long :
    let s : State := { looping with frameIn := [some ⟨0#32, longPayload⟩] }
    s.Running ∧ s.frameIn = some ⟨0#32, longPayload⟩ :: [] ∧ 8 < longPayload.length := by decide
theorem witness_DispatchFollowsClass_units :
    tempFrame.payload.length ≤ 8 ∧ looping.Running ∧
      targetOf (unitsFrame 1#8).id = looping.params.addrUnits := by decide
/-- A frame that the last slot accepts. -/
theorem witness_DispatchFollowsClass_channel :
    proxFrame.payload.length ≤ 8 ∧ looping.Running ∧ targetOf proxFrame.id ≠ looping.params.addrUnits ∧
      ∃ c ∈ looping.slots, c.const.acceptAddr = targetOf proxFrame.id := by decide
theorem witness_DispatchFollowsClass_ignored :
    looping.Running ∧ targetOf otherFrame.id ≠ looping.params.addrUnits ∧
      ∀ c ∈ looping.slots, c.const.acceptAddr ≠ targetOf otherFrame.id := by decide
theorem witness_FrameUnitsBroadcasts_empty :
    looping.Running ∧ (⟨0x10602040#32, []⟩ : Frame).payload = [] := by decide
theorem witness_FrameUnitsBroadcasts_unmapped :
    looping.Running ∧ (unitsFrame 0xF2#8).payload = 0xF2#8 :: [] ∧
      unitAt looping.params ((0xF2#8).toNat % 16) = none := by decide
theorem witness_FrameUnitsBroadcasts_mapped :
    looping.Running ∧ (unitsFrame 0xF1#8).payload = 0xF1#8 :: [] ∧
      (0xF1#8).toNat % 16 = 1 ∧ unitAt looping.params ((0xF1#8).toNat % 16) = some .imperial := by decide
theorem witness_FrameChannelReachesEveryMatch : looping.Running := by decide
theorem witness_FrameIgnoredChangesNothing : looping.Running := by decide
theorem witness_CycleDispatchesThenArbitrates_quiet :
    let s : State := { looping with frameIn := [none] }
    s.Running ∧ s.mode = .loop ∧ s.drawFrame.1 = none := by decide
theorem witness_CycleDispatchesThenArbitrates_frame :
    let s : State := { looping with frameIn := [some tempFrame] }
    s.Running ∧ s.mode = .loop ∧ s.drawFrame.1 = some tempFrame := by decide
theorem witness_CycleDispatchesThenArbitrates_init :
    State.reset.Running ∧ State.reset.mode = .init .busBegin .attempt := by decide

/-- Slot 1 fresh and LAST, slot 0 available and not fresh. -/
theorem witness_ArbitrateShowsFirstFresh :
    let s := both false true (some 1)
    s.Running ∧ ∃ c, s.slots[1]? = some c ∧ c.hasData = true ∧ c.dirty = true ∧
      ∀ j < 1, ∀ d, s.slots[j]? = some d → ¬ (d.hasData = true ∧ d.dirty = true) := by
  refine ⟨by decide, _, rfl, rfl, rfl, fun j hj d hd => ?_⟩
  obtain rfl : j = 0 := by omega
  cases hd
  decide
theorem witness_ArbitrateShowsFirstAvailable_same :
    let s := both false false (some 0)
    s.Running ∧ (∀ d ∈ s.slots, ¬ (d.hasData = true ∧ d.dirty = true)) ∧
      (∃ c, s.slots[0]? = some c ∧ c.hasData = true) ∧ s.last = some 0 :=
  ⟨by decide, by decide, ⟨_, rfl, rfl⟩, rfl⟩
/-- Only slot 1 is available, and LAST is none. -/
theorem witness_ArbitrateShowsFirstAvailable_other :
    let s := chan looping 1 true false [1#8, 2#8] .metric
    s.Running ∧ (∀ d ∈ s.slots, ¬ (d.hasData = true ∧ d.dirty = true)) ∧
      (∃ c, s.slots[1]? = some c ∧ c.hasData = true) ∧
      (∀ j < 1, ∀ d, s.slots[j]? = some d → d.hasData = false) ∧ s.last ≠ some 1 := by
  refine ⟨by decide, by decide, ⟨_, rfl, rfl⟩, fun j hj d hd => ?_, by decide⟩
  obtain rfl : j = 0 := by omega
  cases hd
  rfl
theorem witness_ArbitrateClearsOnlyWhatWasShown :
    looping.Running ∧ (∀ d ∈ looping.slots, d.hasData = false) ∧ looping.last = none ∧
      ({ looping with last := some 1 } : State).last ≠ none := by decide
theorem witness_LastFollowsTheDisplay :
    (∃ t, exec .arbitrate looping = .next t) ∧ (∃ t, exec .arbitrate { looping with last := some 1 } = .next t) ∧
      ∃ t, exec .arbitrate (both true true none) = .next t :=
  ⟨⟨_, rfl⟩, ⟨_, rfl⟩, _, rfl⟩

theorem witness_StepFollowsMode :
    looping.Running ∧ looping.regLocked = true ∧ looping.mode = .loop ∧
      ({ State.reset with regLocked := true } : State).mode = .init .busBegin .attempt := by decide
theorem witness_FirstStepChecksAndLocks_refuses :
    let s : State := { State.reset with params := { State.reset.params with wdtLimit := 0 } }
    s.Running ∧ s.regLocked = false ∧ configCheck s = some .limitZero := by decide
theorem witness_FirstStepChecksAndLocks_passes :
    State.reset.Running ∧ State.reset.regLocked = false ∧ configCheck State.reset = none := by decide
theorem witness_HaltedHasNoStep :
    ({ State.reset with fault := some (.renderWithoutData 0) } : State).fault ≠ none ∧
      ({ State.reset with refused := some (.badSlot 2) } : State).refused ≠ none ∧
      ({ State.reset with mode := .reset } : State).mode = .reset := by decide
theorem witness_StepRunsDecoded :
    State.reset.issued = [] ∧
      ({ State.reset with issued := [.command 0x60#8 []] } : State).issued = .command 0x60#8 [] :: [] ∧
      decodeCommand 0x60#8 [] = .ok .step ∧
      ({ State.reset with issued := [.frame tempFrame] } : State).issued = .frame tempFrame :: [] ∧
      tempFrame.payload.length ≤ 8 := by
  exact ⟨rfl, rfl, rfl, rfl, by decide⟩
/-- A shift of 32, and a payload of 9 bytes. -/
theorem witness_StepRunsDecoded_unspelled :
    (({ State.reset with issued := [.command 0x01#8 [0, 0, 32]] } : State).Running ∧
        decodeCommand 0x01#8 [0, 0, 32] = .error (.badOperands 0x01#8)) ∧
      ({ State.reset with issued := [.frame ⟨0#32, longPayload⟩] } : State).Running ∧
      ({ State.reset with issued := [.stimulus (.frame ⟨0#32, longPayload⟩)] } : State).Running ∧
      8 < longPayload.length := by
  exact ⟨⟨by decide, rfl⟩, by decide, by decide, by decide⟩
/-- One state for each MODE, with any stimulus that can be spelled at the head of the port. -/
theorem witness_StimulusIsStepWithItsAnswer (st : Stimulus) :
    let l : State := { looping with issued := [.stimulus st] }
    let a : State := { l with mode := .init .busBegin .attempt }
    let b : State := { l with mode := .init .busBegin .backoff }
    (l.Running ∧ l.regLocked = true ∧ l.mode = .loop ∧ l.issued = .stimulus st :: []) ∧
      (a.Running ∧ a.regLocked = true ∧ a.mode = .init .busBegin .attempt ∧ a.issued = .stimulus st :: []) ∧
      b.Running ∧ b.regLocked = true ∧ b.mode = .init .busBegin .backoff ∧ b.issued = .stimulus st :: [] := by
  refine ⟨⟨⟨rfl, rfl, ?_⟩, rfl, rfl, rfl⟩, ⟨⟨rfl, rfl, ?_⟩, rfl, rfl, rfl⟩, ⟨rfl, rfl, ?_⟩, rfl, rfl, rfl⟩ <;> nofun
/-- The first step's checks fail, and pass. -/
theorem witness_StimulusIsStepWithItsAnswer_first :
    let s : State := { State.reset with issued := [.stimulus .ok] }
    let z : State := { s with params := { s.params with wdtLimit := 0 } }
    (z.Running ∧ z.regLocked = false ∧ configCheck z = some .limitZero ∧ z.issued = .stimulus .ok :: []) ∧
      s.Running ∧ configCheck s = none ∧ s.issued = .stimulus .ok :: [] := by decide

theorem witness_UnknownCodesRefused :
    ∀ code ∈ [0x00#8, 0x06#8, 0x61#8, 0xFF#8],
      code.toNat ∉ [0x01, 0x02, 0x03, 0x04, 0x05, 0x10, 0x11, 0x12, 0x13, 0x20, 0x21, 0x22, 0x23, 0x24, 0x25, 0x26,
        0x30, 0x31, 0x40, 0x41, 0x42, 0x50, 0x60] ∧
      ({ State.reset with issued := [.command code []] } : State).Running := by decide
theorem witness_DecodeOfEncode :
    (Instr.dispatch ⟨0xFFFFFFFF#32, List.replicate 8 0xFF#8⟩).wf = true ∧
      (Instr.frameIgnored otherFrame).wf = true ∧ Instr.frameIgnored otherFrame = frameRow Config.vectors otherFrame :=
  ⟨by decide, by decide, rfl⟩

/-- A state that meets the invariant, and steps. -/
theorem witness_StepKeepsInv : (answered [.ok]).Inv ∧ ∃ t, step (answered [.ok]) = .next t := by
  refine ⟨⟨by decide, by decide, by decide, fun _ => by decide, fun h => ?_, by decide, by decide, ?_, ?_⟩, _, rfl⟩
  · exact absurd h (by decide)
  · intro i h
    cases h
  · intro ph sub h
    cases h
    decide
/-- The invariant's other side: a state in RESET meets it too. -/
theorem witness_Inv_in_reset :
    ({ State.reset with mode := .reset, wdtState := .reset, errCnt := 3, events := [.hwReset] } : State).Inv := by
  refine ⟨by decide, by decide, by decide, fun h => absurd rfl h, fun _ => rfl, by decide, by decide, ?_, ?_⟩
  · intro i h
    cases h
  · intro ph sub h
    cases h
theorem witness_ResetHasInv :
    1 ≤ Config.vectors.params.wdtLimit ∧ Config.vectors.params.wdtLimit < 2 ^ Config.vectors.params.cntW := by decide
theorem witness_StepKeepsPorts :
    let s : State := { looping with frameIn := [some ⟨0x10602040#32, List.replicate 8 0#8⟩] }
    s.PortsOk ∧ ∃ t, step s = .next t := by
  refine ⟨⟨?_, ?_, ?_, ?_⟩, _, rfl⟩
  · simp
  · simp [looping, State.reset, State.resetOf, State.beforeAssembly]
  · simp [looping, State.reset, State.resetOf, State.beforeAssembly]
  · simp [looping, State.reset, State.resetOf, State.beforeAssembly]
theorem witness_StepKeepsPorts_draw :
    ∃ f, State.drawFrame { looping with frameIn := [some ⟨0x10602040#32, List.replicate 9 0#8⟩] } = (some f, looping) := by
  exact ⟨_, rfl⟩
theorem witness_StepKeepsPorts_run : fetch looping = .run .step looping := rfl
theorem witness_ConfigurationIsStatic :
    looping.Running ∧ looping.regLocked = true ∧ ∃ t, step { looping with frameIn := [none] } = .next t :=
  ⟨by decide, rfl, _, rfl⟩
theorem witness_HasDataNeverLost :
    (∃ t, step { warm false .metric with frameIn := [none] } = .next t) ∧
      ∃ c, (warm false .metric).slots[0]? = some c ∧ c.hasData = true := ⟨⟨_, rfl⟩, _, rfl, rfl⟩
theorem witness_EventsOnlyAppendAndNeverClear : ∃ t, step (answered [.fail]) = .next t := ⟨_, rfl⟩
theorem witness_ErrorsOnlyCounted :
    (∃ t, exec .countError State.reset = .next t) ∧ ∃ t, exec (.frameIgnored otherFrame) State.reset = .next t :=
  ⟨⟨_, rfl⟩, _, rfl⟩
theorem witness_LastWrittenByArbitrationOnly :
    (∃ t, exec (.render 0) (warm true .metric) = .next t) ∧ Instr.render 0 ≠ .arbitrate ∧ Instr.render 0 ≠ .cycle ∧
      Instr.render 0 ≠ .step := ⟨⟨_, rfl⟩, by decide⟩
theorem witness_StepNeverFaults :
    (∃ t, exec .step { looping with frameIn := [some tempFrame] } = .next t) ∧ looping.regLocked = true :=
  ⟨⟨_, rfl⟩, rfl⟩
theorem witness_LoopOnlyAfterDisplayBegin :
    let s : State := { answered [.ok] with mode := .init .displayBegin .attempt }
    s.mode = .init .displayBegin .attempt ∧ ∃ t, exec .step s = .next t ∧ t.mode = .loop := ⟨rfl, _, rfl, rfl⟩
theorem witness_InitialisationEnds :
    (answered [.ok]).Inv ∧ (answered [.ok]).Running ∧ (answered [.ok]).issued = [] ∧ (answered [.ok]).ConfigOk ∧
      (answered [.ok]).mode = .init .busBegin .attempt ∧
      (phaseList (answered [.ok]).params)[0]? = some .busBegin :=
  ⟨witness_StepKeepsInv.1, by decide⟩
/-- Both ties of the rounding: bytes 0xFF (157.5 to 158) and 0x4B (-4.5 to -5). -/
theorem witness_TemperatureReadings :
    10 * (158 : Int) - 9 * (((0xFF#8).toNat : Int) - 80) = 5 ∧ 10 * (-5 : Int) - 9 * (((0x4B#8).toNat : Int) - 80) = -5 := by
  decide

end Sys2Proof.Tests
end

section
/-! The checks of the first step (R7, R193). -/

namespace Sys2Proof.Machine

/-- A check before others reports nothing, nor do they, exactly when it passes and they report nothing. -/
theorem ite_some_eq_none_iff {α : Type} {p : Prop} [Decidable p] {a : α} {r : Option α} :
    (if p then some a else r) = none ↔ ¬p ∧ r = none := by
  by_cases h : p <;> simp [h]

@[simp] theorem tooWide_eq_false_iff {a : Nat} : tooWide a = false ↔ a < 2 ^ 13 := by
  simp [tooWide]

/-- No handle stands twice in the registry exactly when no two slots hold the same channel (R193). -/
theorem handles_nodup_iff (s : State) :
    s.handles.Nodup ↔ ∀ (i j : Nat) (c d : Slot) (h : Nat),
      s.slots[i]? = some c → s.slots[j]? = some d → c.reg = some h → d.reg = some h → i = j := by
  rw [State.handles, List.Nodup, List.pairwise_filterMap, List.pairwise_iff_getElem]
  constructor
  · intro hp i j c d h hi hj hc hd
    obtain ⟨hi', rfl⟩ := List.getElem?_eq_some_iff.1 hi
    obtain ⟨hj', rfl⟩ := List.getElem?_eq_some_iff.1 hj
    rcases Nat.lt_trichotomy i j with hlt | heq | hgt
    · exact absurd rfl (hp i j hi' hj' hlt h hc h hd)
    · exact heq
    · exact absurd rfl (hp j i hj' hi' hgt h hd h hc)
  · rintro hu i j hi hj hlt a ha _ hb rfl
    exact hlt.ne (hu i j _ _ a (List.getElem?_eq_getElem hi) (List.getElem?_eq_getElem hj) ha hb)

end Sys2Proof.Machine

open Sys2Proof.Machine

/-- Settles O40: each branch of the check is one rule, and the last is about the registry as a list of handles. -/
theorem configCheckIsTheRules : Obligations.ConfigCheckIsTheRules := by
  intro s
  rw [← handles_nodup_iff]
  simp only [configCheck, ite_some_eq_none_iff]
  simp [Nat.one_le_iff_ne_zero]

end

section
/-! The command decoder gives only instructions that can be spelled (R83). -/

namespace Sys2Proof.Machine

theorem takeBytes_length {n : Nat} {l : List Nat} {p : List Byte} (h : takeBytes n l = some p) : p.length = n := by
  induction n, l using takeBytes.induct generalizing p with
  | case1 => simp_all [takeBytes]
  | case2 => simp_all [takeBytes]
  | case3 n ih =>
    obtain ⟨q, hq, rfl⟩ := Option.map_eq_some_iff.1 h
    simp [ih hq]
  | case4 n b bs ih =>
    obtain ⟨x, -, hx⟩ := Option.bind_eq_some_iff.1 h
    obtain ⟨q, hq, rfl⟩ := Option.map_eq_some_iff.1 hx
    simp [ih hq]

/-- A payload that is spelled has at most 8 bytes (R83). -/
theorem payloadOf_short {n : Nat} {l : List Nat} {p : List Byte} (h : payloadOf n l = some p) :
    p.length ≤ maxPayload := by
  unfold payloadOf at h
  split at h
  · next hn => rwa [takeBytes_length h]
  · cases h

theorem upTo_eq_some_iff {n : Nat} {ops : List Nat} {r : Option Instr} {i : Instr} :
    upTo n ops r = some i ↔ ops.length ≤ n ∧ r = some i := by
  simp [upTo]

/-- Only PROCESS_FRAME and DISPATCH carry a payload operand; every other operand range is in the operand's type. -/
theorem decodeOperands_wf {op : Opcode} {ops : List Nat} {i : Instr} (h : decodeOperands op ops = some i) :
    i.wf = true := by
  cases op
  case processFrame =>
    obtain ⟨t, -, h⟩ := Option.bind_eq_some_iff.1 h
    obtain ⟨p, hp, rfl⟩ := Option.map_eq_some_iff.1 h
    exact decide_eq_true (payloadOf_short hp)
  case dispatch =>
    obtain ⟨id, -, h⟩ := Option.bind_eq_some_iff.1 h
    obtain ⟨p, hp, rfl⟩ := Option.map_eq_some_iff.1 h
    exact decide_eq_true (payloadOf_short hp)
  all_goals
    simp only [decodeOperands, upTo_eq_some_iff, Option.bind_eq_some_iff, Option.map_eq_some_iff,
      Option.some.injEq] at h
    grind [Instr.wf]

theorem frameRow_wf (cfg : Config) (f : Frame) : (frameRow cfg f).wf = f.wf := by
  unfold frameRow
  split <;> rfl

theorem decodeCommand_wf {code : Byte} {ops : List Nat} {i : Instr} (h : decodeCommand code ops = .ok i) :
    i.wf = true := by
  unfold decodeCommand at h
  split at h
  · cases h
  · split at h
    · cases h
    · next hi =>
      cases h
      exact decodeOperands_wf hi

/-- A stimulus that can be spelled is a STEP (R85). -/
theorem decodeIssue_stimulus {cfg : Config} {st : Stimulus} {i : Instr} (h : decodeIssue cfg (.stimulus st) = .ok i) :
    i = .step := by
  simp only [decodeIssue] at h
  split at h <;> cases h
  rfl

/-- Whatever is issued, the decoder gives only instructions that can be spelled (R83, D7). -/
theorem decodeIssue_wf {cfg : Config} {it : Issue} {i : Instr} (h : decodeIssue cfg it = .ok i) : i.wf = true := by
  cases it with
  | command code ops => exact decodeCommand_wf h
  | frame f =>
    simp only [decodeIssue] at h
    split at h
    · next hf =>
      cases h
      rwa [frameRow_wf]
    · cases h
  | stimulus st =>
    obtain rfl := decodeIssue_stimulus h
    rfl

end Sys2Proof.Machine
end

section
/-! What a fetch can give (R80, R85). -/

namespace Sys2Proof.Machine

/-- The instruction a fetch runs is STEP when nothing is issued, and else the one its issue spells, in the state
with the issue consumed and, for a stimulus, its answer at the port. -/
theorem fetch_run_cases {s t : State} {i : Instr} (h : fetch s = .run i t) :
    (s.issued = [] ∧ i = .step ∧ t = s) ∨
    ∃ it rest, s.issued = it :: rest ∧ decodeIssue s.config it = .ok i ∧
      (t = { s with issued := rest } ∨
        ∃ st, it = .stimulus st ∧ t = stimulusAnswer st { s with issued := rest }) := by
  unfold fetch at h
  split at h
  · next hs =>
    cases h
    exact .inl ⟨hs, rfl, rfl⟩
  · next it rest hs =>
    refine .inr ⟨it, rest, hs, ?_⟩
    unfold fetchIssue at h
    split at h
    · cases h
    · cases h
    · cases h
    · next j hj =>
      split at h
      · next st =>
        obtain rfl := decodeIssue_stimulus hj
        unfold fetchStimulus at h
        split at h
        · cases h
          exact ⟨hj, .inl rfl⟩
        · split at h <;> cases h
          exact ⟨hj, .inr ⟨st, rfl, rfl⟩⟩
      · cases h
        exact ⟨hj, .inl rfl⟩
      · cases h
        exact ⟨hj, .inl rfl⟩

/-- A fetch that stops with a next state has consumed the issue and recorded a refusal. -/
theorem fetch_stop_next {s t : State} (h : fetch s = .stop (.next t)) :
    ∃ it rest c, s.issued = it :: rest ∧ t = { s with issued := rest, refused := some c } := by
  unfold fetch at h
  split at h
  · cases h
  · next it rest hs =>
    refine ⟨it, rest, ?_⟩
    unfold fetchIssue at h
    split at h
    · next c _ =>
      injection h with h
      obtain ⟨-, rfl⟩ := guarded_next.1 h
      exact ⟨.unknownOp c, hs, rfl⟩
    · injection h with h
      exact absurd h (unspelled_ne_next _ _ _)
    · injection h with h
      exact absurd h (unspelled_ne_next _ _ _)
    · split at h
      · next st =>
        unfold fetchStimulus at h
        split at h
        · cases h
        · split at h <;> cases h
          exact ⟨.wrongMode s.mode, hs, rfl⟩
      · cases h
      · cases h

/-- Every instruction a step runs can be spelled. -/
theorem fetch_run_wf {s t : State} {i : Instr} (h : fetch s = .run i t) : i.wf = true := by
  rcases fetch_run_cases h with ⟨-, rfl, -⟩ | ⟨it, rest, -, hd, -⟩
  · rfl
  · exact decodeIssue_wf hd

end Sys2Proof.Machine
end

section
/-! The port types (R11, D7) are kept by each operation, and so by every step. -/

namespace Sys2Proof.Machine

variable {s t : State}

/-- The port types speak of three fields only, and taking an answer from the frame port keeps them. -/
theorem State.PortsOk.mono (h : s.PortsOk) (hf : ∀ r ∈ t.frameIn, r ∈ s.frameIn) (hi : t.issued = s.issued)
    (hr : t.ret = s.ret) : t.PortsOk where
  frames r hm := h.frames r (hf r hm)
  issues := hi ▸ h.issues
  stimuli := hi ▸ h.stimuli
  returned := hr ▸ h.returned

theorem State.PortsOk.congr (h : s.PortsOk) (hf : t.frameIn = s.frameIn) (hi : t.issued = s.issued)
    (hr : t.ret = s.ret) : t.PortsOk :=
  h.mono (fun _ hm => hf ▸ hm) hi hr

theorem State.PortsOk.consume (h : s.PortsOk) {it : Issue} {rest : List Issue} (hs : s.issued = it :: rest) :
    State.PortsOk { s with issued := rest } where
  frames := h.frames
  issues f hm := h.issues f (hs ▸ List.mem_cons_of_mem it hm)
  stimuli st hm := h.stimuli st (hs ▸ List.mem_cons_of_mem it hm)
  returned := h.returned

/-- An answer of at most 8 bytes may be put next at the frame port. -/
theorem State.PortsOk.consFrame (h : s.PortsOk) {r : Option Frame}
    (hr : ∀ f, r = some f → f.payload.length ≤ 8) : State.PortsOk { s with frameIn := r :: s.frameIn } where
  frames := List.forall_mem_cons.2 ⟨hr, h.frames⟩
  issues := h.issues
  stimuli := h.stimuli
  returned := h.returned

/-- The one frame a stimulus brings is its own, or the one-byte broadcast of UNITS_BCAST (R85). -/
theorem State.PortsOk.stimulusAnswer (h : s.PortsOk) {st : Stimulus} (hw : st.wf = true) :
    (stimulusAnswer st s).PortsOk := by
  cases st with
  | ok => exact h.congr rfl rfl rfl
  | fail => exact h.congr rfl rfl rfl
  | wait => exact h
  | idle => exact h.consFrame (by simp)
  | frame f =>
    refine h.consFrame ?_
    rintro _ ⟨⟩
    exact of_decide_eq_true hw
  | unitsBcast p sd n =>
    refine h.consFrame ?_
    rintro _ ⟨⟩
    simp [broadcastFrame]

theorem State.PortsOk.returns (h : s.PortsOk) {r : Result}
    (hr : ∀ f, r = .polled (some f) → f.payload.length ≤ 8) : (s.returns r).PortsOk where
  frames := h.frames
  issues := h.issues
  stimuli := h.stimuli
  returned f hf := hr f (Option.some.inj hf)

theorem State.PortsOk.refuse (h : s.PortsOk) (c : RefusalCode) : (s.refuse c).PortsOk :=
  h.congr rfl rfl rfl

theorem State.PortsOk.modSlot (h : s.PortsOk) (i : Nat) (g : Slot → Slot) : (s.modSlot i g).PortsOk :=
  h.congr rfl rfl rfl

/-- A driver that has not returned puts a command, and no frame, back at the command port. -/
theorem State.PortsOk.goesOn (h : s.PortsOk) (op : Op) : (s.goesOn op).PortsOk where
  frames := h.frames
  issues f hm := h.issues f (by simpa [encode] using hm)
  stimuli st hm := h.stimuli st (by simpa [encode] using hm)
  returned := h.returned

theorem State.PortsOk.withSlot (h : s.PortsOk) (i : Nat) {k : Slot → State} (hk : ∀ c, (k c).PortsOk) :
    (s.withSlot i k).PortsOk := by
  rcases withSlot_cases s i k with ⟨-, e⟩ | ⟨c, -, e⟩ <;> rw [e]
  · exact h.refuse _
  · exact hk c

/-- The watchdog's operations write neither the frame port, nor the command port, nor the result. -/
theorem State.PortsOk.watchdog (h : s.PortsOk) (w : WatchdogWrites s t) : t.PortsOk := by
  obtain ⟨m, e, wd, l, q, d, rfl⟩ := w
  exact h.congr rfl rfl rfl

theorem State.PortsOk.drawFrame (h : s.PortsOk) : s.drawFrame.2.PortsOk := by
  obtain ⟨q, d, e, hq⟩ := drawFrame_form s
  rw [e]
  exact h.mono hq rfl rfl

theorem State.PortsOk.initStep (h : s.PortsOk) : (initStep s).PortsOk := by
  rcases hm : s.mode with ⟨ph, sub⟩ | _ | _
  · exact h.watchdog (initStep_writes hm)
  · simp only [Machine.initStep, hm]
    exact h.refuse _
  · simp only [Machine.initStep, hm]
    exact h.refuse _

theorem State.PortsOk.guardedAttempt (h : s.PortsOk) (op : Op) : (guardedAttempt op s).PortsOk := by
  have hd := h.watchdog (driveOnce_writes op s)
  rcases guardedAttempt_cases op s with ⟨-, e⟩ | ⟨-, e⟩ <;> rw [e]
  · exact hd
  · exact hd.goesOn op

theorem State.PortsOk.renderAt (h : s.PortsOk) (i : Nat) : (renderAt i s).PortsOk := by
  refine h.withSlot i fun c => ?_
  split <;> exact h.congr rfl rfl rfl

theorem State.PortsOk.arbitrate (h : s.PortsOk) : (arbitrate s).PortsOk := by
  obtain ⟨sl, l, la, e, -⟩ := arbitrate_form s
  rw [e]
  exact h.congr rfl rfl rfl

theorem State.PortsOk.unitBroadcast (h : s.PortsOk) (f : Frame) : (unitBroadcast f s).PortsOk := by
  rcases unitBroadcast_cases f s with ⟨e, -⟩ | ⟨u, -, e⟩ <;> rw [e]
  · exact h
  · exact h.congr rfl rfl rfl

theorem State.PortsOk.processSlots (h : s.PortsOk) (m : List Nat) (p : List Byte) :
    (processSlots m p s).PortsOk := by
  rw [processSlots_eq]
  exact h.congr rfl rfl rfl

theorem State.PortsOk.dispatch (h : s.PortsOk) (f : Frame) : (dispatch f s).PortsOk := by
  obtain ⟨sl, l, e, -⟩ := dispatch_form f s
  rw [e]
  exact h.congr rfl rfl rfl

theorem State.PortsOk.cycle (h : s.PortsOk) : (cycle s).PortsOk := by
  obtain ⟨sl, l, l', la, q, d, e, -, -, hq, -⟩ := cycle_form s
  rw [e]
  exact h.mono hq rfl rfl

theorem State.PortsOk.stepMode (h : s.PortsOk) : (stepMode s).PortsOk := by
  unfold Machine.stepMode
  split
  · exact h.initStep
  · exact h.cycle
  · exact h

theorem State.PortsOk.stepBlock (h : s.PortsOk) : (stepBlock s).PortsOk := by
  unfold Machine.stepBlock
  split
  · exact h.stepMode
  · split
    · exact h.refuse _
    · exact State.PortsOk.stepMode (h.congr rfl rfl rfl)

theorem State.PortsOk.regSet (h : s.PortsOk) (n ch : Nat) : (regSet n ch s).PortsOk := by
  unfold Machine.regSet
  split
  · exact h.refuse _
  · split
    · exact h.refuse _
    · split
      · exact h.refuse _
      · exact h.modSlot _ _

/-- The effect of every instruction keeps the port types; POLL is the one that returns a frame, and it is one drawn. -/
theorem State.PortsOk.effect (h : s.PortsOk) (i : Instr) : (effect i s).PortsOk := by
  have returns_plain {r : Result} (hr : ∀ f, r ≠ .polled f) : (s.returns r).PortsOk :=
    h.returns fun f e => absurd e (hr _)
  cases i with
  | extract | pack | decodeId | encodeId | classify | regGet => exact returns_plain (by simp)
  | countError => exact h.watchdog (countError_writes s)
  | clearErrors => exact h.congr rfl rfl rfl
  | guardedAttempt op => exact h.guardedAttempt op
  | initStep => exact h.initStep
  | recognize i | shouldRender i | canRender i | getName i =>
    exact h.withSlot i fun _ => returns_plain (by simp)
  | processFrame i | setUnits i => exact h.withSlot i fun _ => h.modSlot _ _
  | render i => exact h.renderAt i
  | regSet n ch => exact h.regSet n ch
  | poll => exact h.drawFrame.returns fun f e => drawFrame_short (Result.polled.inj e)
  | dispatch f => exact h.dispatch f
  | cycle =>
    simp only [Machine.effect]
    split
    · exact h.cycle
    · exact h.refuse _
  | arbitrate => exact h.arbitrate
  | step => exact h.stepBlock
  | frameUnits f => exact h.unitBroadcast f
  | frameChannel f => exact h.processSlots _ _
  | frameIgnored => exact h

/-- The state an instruction runs in has the issue consumed and the answer of a spelled stimulus at its port. -/
theorem State.PortsOk.fetch_run (h : s.PortsOk) {i : Instr} (hf : fetch s = .run i t) : t.PortsOk := by
  rcases fetch_run_cases hf with ⟨-, -, rfl⟩ | ⟨it, rest, hs, -, rfl | ⟨st, rfl, rfl⟩⟩
  · exact h
  · exact h.consume hs
  · exact (h.consume hs).stimulusAnswer (h.stimuli st (by simp [hs]))

theorem State.PortsOk.fetch_stop (h : s.PortsOk) (hf : fetch s = .stop (.next t)) : t.PortsOk := by
  obtain ⟨it, rest, c, hs, rfl⟩ := fetch_stop_next hf
  exact (h.consume hs).refuse c

theorem State.PortsOk.step (h : s.PortsOk) (hn : step s = .next t) : t.PortsOk := by
  unfold Machine.step at hn
  split at hn
  · next i u hf =>
    obtain ⟨-, -, rfl⟩ := exec_next.1 hn
    exact (h.fetch_run hf).effect i
  · next o hf =>
    subst hn
    exact h.fetch_stop hf

end Sys2Proof.Machine

open Sys2Proof.Machine

/-- Settles O49: the frame port cuts what it carries, the decoder refuses what cannot be spelled, and every operation
keeps the port types. -/
theorem stepKeepsPorts : Obligations.StepKeepsPorts :=
  ⟨fun _ _ => drawFrame_short, fun _ _ _ => fetch_run_wf, fun _ _ h => h.step⟩

end

section
/-! The phases by their index in the list (R22). -/

namespace Sys2Proof.Machine

variable {p : Params}

theorem phaseList_length (p : Params) :
    (phaseList p).length = 3 + p.maskValue.length + p.filterAddr.length := by
  simp [phaseList]
  omega

theorem phaseList_nodup (p : Params) : (phaseList p).Nodup := by
  have hm : ((List.range p.maskValue.length).map Phase.mask).Nodup := List.nodup_range.map fun _ _ => Phase.mask.inj
  have hf : ((List.range p.filterAddr.length).map Phase.filter).Nodup :=
    List.nodup_range.map fun _ _ => Phase.filter.inj
  simp [phaseList, List.nodup_append, hm, hf, or_imp, forall_and]

theorem phaseList_busBegin (p : Params) : (phaseList p)[0]? = some .busBegin := rfl

theorem phaseList_mask {k : Nat} (h : k < p.maskValue.length) : (phaseList p)[1 + k]? = some (.mask k) := by
  simp [phaseList, Nat.add_comm 1, h, List.getElem?_append]

theorem phaseList_filter {k : Nat} (h : k < p.filterAddr.length) :
    (phaseList p)[1 + p.maskValue.length + k]? = some (.filter k) := by
  simp [phaseList, Nat.add_comm 1, Nat.add_right_comm, h, List.getElem?_append]

theorem phaseList_listenOnly (p : Params) :
    (phaseList p)[1 + p.maskValue.length + p.filterAddr.length]? = some .listenOnly := by
  simp [phaseList, Nat.add_comm 1, Nat.add_right_comm]

theorem phaseList_displayBegin (p : Params) :
    (phaseList p)[2 + p.maskValue.length + p.filterAddr.length]? = some .displayBegin := by
  have hlast : 2 + p.maskValue.length + p.filterAddr.length = (phaseList p).length - 1 := by
    rw [phaseList_length]
    omega
  rw [hlast, ← List.getLast?_eq_getElem?, phaseList, List.getLast?_append]
  rfl

theorem mask_mem_phaseList {k : Nat} : Phase.mask k ∈ phaseList p ↔ k < p.maskValue.length := by
  simp [phaseList]

theorem filter_mem_phaseList {k : Nat} : Phase.filter k ∈ phaseList p ↔ k < p.filterAddr.length := by
  simp [phaseList]

/-- After the masks stands the first filter slot, or LISTEN_ONLY when there is none. -/
theorem phaseList_afterMasks (p : Params) : (phaseList p)[1 + p.maskValue.length]? = some (afterMasks p) := by
  unfold afterMasks
  split
  · next h => simpa [h] using phaseList_listenOnly p
  · next h => exact phaseList_filter (k := 0) (Nat.pos_of_ne_zero h)

/-- `next` of a phase of the list is the one after it (R22). -/
theorem nextPhase_eq_getElem? {k : Nat} {ph : Phase} (h : (phaseList p)[k]? = some ph) :
    nextPhase p ph = (phaseList p)[k + 1]? := by
  have index_eq {j : Nat} (hj : (phaseList p)[j]? = some ph) : k = j :=
    (List.getElem?_inj (List.getElem?_eq_some_iff.1 h).1 (phaseList_nodup p)).1 (h.trans hj.symm)
  have hmem := List.mem_of_getElem? h
  cases ph with
  | busBegin =>
    obtain rfl := index_eq (phaseList_busBegin p)
    simp only [nextPhase]
    split
    · next hm => simpa [hm] using (phaseList_afterMasks p).symm
    · exact (phaseList_mask (by omega)).symm
  | mask j =>
    rw [mask_mem_phaseList] at hmem
    obtain rfl := index_eq (phaseList_mask hmem)
    simp only [nextPhase]
    split
    · next hj => exact (phaseList_mask hj).symm
    · rw [← phaseList_afterMasks]
      congr 1
      omega
  | filter j =>
    rw [filter_mem_phaseList] at hmem
    obtain rfl := index_eq (phaseList_filter hmem)
    simp only [nextPhase]
    split
    · next hj => exact (phaseList_filter hj).symm
    · rw [← phaseList_listenOnly]
      congr 1
      omega
  | listenOnly =>
    obtain rfl := index_eq (phaseList_listenOnly p)
    rw [nextPhase, ← phaseList_displayBegin]
    congr 1
    omega
  | displayBegin =>
    obtain rfl := index_eq (phaseList_displayBegin p)
    exact (List.getElem?_eq_none (by rw [phaseList_length]; omega)).symm

/-- What `next` answers is a phase of the list, whatever phase it is asked of. -/
theorem nextPhase_mem {ph nx : Phase} (h : nextPhase p ph = some nx) : nx ∈ phaseList p := by
  have hmasks : afterMasks p ∈ phaseList p := List.mem_of_getElem? (phaseList_afterMasks p)
  have hlisten : .listenOnly ∈ phaseList p := List.mem_of_getElem? (phaseList_listenOnly p)
  cases ph with
  | busBegin =>
    obtain rfl := Option.some.inj h
    split
    · exact hmasks
    · exact mask_mem_phaseList.2 (by omega)
  | mask k =>
    obtain rfl := Option.some.inj h
    split
    · next hk => exact mask_mem_phaseList.2 hk
    · exact hmasks
  | filter k =>
    obtain rfl := Option.some.inj h
    split
    · next hk => exact filter_mem_phaseList.2 hk
    · exact hlisten
  | listenOnly =>
    obtain rfl := Option.some.inj h
    exact List.mem_of_getElem? (phaseList_displayBegin p)
  | displayBegin => cases h

end Sys2Proof.Machine

open Sys2Proof.Machine

/-- Settles O17: each phase has its index, and an index has one phase. -/
theorem phasesRunInOrder : Obligations.PhasesRunInOrder := fun p =>
  ⟨phaseList_length p, phaseList_nodup p, phaseList_busBegin p, fun _ => phaseList_mask, fun _ => phaseList_filter,
    phaseList_listenOnly p, phaseList_displayBegin p, fun _ _ => nextPhase_eq_getElem?⟩

end

section
/-! What a step can do to the fields the invariant speaks of, said once: it is a chain of four moves, then perhaps
CLEAR_ERRORS. -/

namespace Sys2Proof.Machine

/-! ## Quiet writes -/

/-- From `s` to `t` the parameters, MODE, the watchdog and LAST stay, the slots evolve, and what is emitted is neither
HwReset nor Clear. The ports, the registry lock, FAULT, REFUSED and the result are free. -/
structure Quiet (s t : State) : Prop where
  slots : SlotsEvolve s.slots t.slots
  events : ∃ l, t.events = s.events ++ l ∧ .hwReset ∉ l ∧ .clear ∉ l
  params_eq : t.params = s.params := by rfl
  mode_eq : t.mode = s.mode := by rfl
  errCnt_eq : t.errCnt = s.errCnt := by rfl
  wdtState_eq : t.wdtState = s.wdtState := by rfl
  last_eq : t.last = s.last := by rfl

variable {s t : State}

/-- A write to the free fields only is quiet. -/
theorem Quiet.same (h : (t.params, t.mode, t.errCnt, t.wdtState, t.last, t.slots, t.events) =
    (s.params, s.mode, s.errCnt, s.wdtState, s.last, s.slots, s.events)) : Quiet s t := by
  simp only [Prod.mk.injEq] at h
  obtain ⟨hp, hm, he, hw, hl, hs, hv⟩ := h
  exact ⟨hs ▸ .refl _, ⟨[], by simp [hv]⟩, hp, hm, he, hw, hl⟩

theorem Quiet.refl (s : State) : Quiet s s := .same rfl

theorem Quiet.trans {u : State} (h : Quiet s t) (k : Quiet t u) : Quiet s u := by
  obtain ⟨l, hl, hr, hc⟩ := h.events
  obtain ⟨l', hl', hr', hc'⟩ := k.events
  exact {
    slots := h.slots.trans k.slots
    events := ⟨l ++ l', by simp [hl, hl'], by simp [hr, hr'], by simp [hc, hc']⟩
    params_eq := k.params_eq.trans h.params_eq
    mode_eq := k.mode_eq.trans h.mode_eq
    errCnt_eq := k.errCnt_eq.trans h.errCnt_eq
    wdtState_eq := k.wdtState_eq.trans h.wdtState_eq
    last_eq := k.last_eq.trans h.last_eq }

theorem Quiet.emit (s : State) {e : Event} (hr : e ≠ .hwReset) (hc : e ≠ .clear) : Quiet s (s.emit e) where
  slots := .refl _
  events := ⟨[e], rfl, by simpa using hr.symm, by simpa using hc.symm⟩

theorem Quiet.refuse (s : State) (r : RefusalCode) : Quiet s (s.refuse r) := .same rfl

theorem Quiet.returns (s : State) (r : Result) : Quiet s (s.returns r) := .same rfl

theorem Quiet.modSlot {g : Slot → Slot} (hg : ∀ c, Slot.Evolves c (g c)) (s : State) (i : Nat) :
    Quiet s (s.modSlot i g) where
  slots := slotsEvolve_modify hg _ i
  events := ⟨[], by simp⟩

theorem Quiet.forSlots {f : Nat → State → State} (hf : ∀ i u, Quiet u (f i u)) (s : State) :
    Quiet s (s.forSlots f) :=
  List.foldlRecOn _ _ (.refl s) fun u hu i _ => hu.trans (hf i u)

theorem Quiet.withSlot {i : Nat} {k : Slot → State} (hk : ∀ c, Quiet s (k c)) : Quiet s (s.withSlot i k) := by
  rcases withSlot_cases s i k with ⟨-, e⟩ | ⟨c, -, e⟩ <;> rw [e]
  · exact .refuse s _
  · exact hk c

/-! ## The quiet operations -/

theorem drawFrame_quiet (s : State) : Quiet s s.drawFrame.2 := by
  obtain ⟨q, d, e, -⟩ := drawFrame_form s
  exact e ▸ .same rfl

theorem attemptOnce_quiet (op : Op) (s : State) : Quiet s (attemptOnce op s).2 := by
  obtain ⟨q, d, e⟩ := drawAttempt_form (s.emit (.attempt op (callOf s.params op)))
  rw [attemptOnce, e]
  exact (Quiet.emit s (by simp) (by simp)).trans (.same rfl)

theorem processFrameAt_quiet (p : List Byte) (i : Nat) (s : State) : Quiet s (processFrameAt p i s) :=
  .modSlot (Slot.process_evolves p) s i

theorem setUnitsAt_quiet (u : Units) (i : Nat) (s : State) : Quiet s (setUnitsAt u i s) :=
  .modSlot (Slot.withUnits_evolves u) s i

/-- RENDER shows and cleans its slot, or records a fault (R164, R303). -/
theorem renderAt_quiet (i : Nat) (s : State) : Quiet s (renderAt i s) := by
  refine .withSlot fun c => ?_
  split
  · exact (Quiet.emit s (by simp) (by simp)).trans (.modSlot Slot.clean_evolves _ i)
  · exact .same rfl

theorem processSlots_quiet (m : List Nat) (p : List Byte) (s : State) : Quiet s (processSlots m p s) := by
  refine .forSlots (fun i u => ?_) s
  split
  · exact processFrameAt_quiet p i u
  · exact .refl u

theorem unitBroadcast_quiet (f : Frame) (s : State) : Quiet s (unitBroadcast f s) := by
  unfold unitBroadcast
  split
  · exact .refl s
  · split
    · exact .refl s
    · next u _ => exact (Quiet.forSlots (setUnitsAt_quiet u) s).trans (.emit _ (by simp) (by simp))

theorem dispatch_quiet (f : Frame) (s : State) : Quiet s (dispatch f s) := by
  unfold dispatch
  split
  · exact unitBroadcast_quiet f s
  · exact processSlots_quiet _ _ s
  · exact .refl s

/-- REG_SET writes the registry entry of a slot, which no part of the invariant reads. -/
theorem regSet_quiet (n ch : Nat) (s : State) : Quiet s (regSet n ch s) := by
  unfold regSet
  split
  · exact .refuse s _
  · split
    · exact .refuse s _
    · split
      · exact .refuse s _
      · refine .modSlot (fun c => ?_) s n
        exact ⟨rfl, id, id⟩

/-- Every instruction is quiet but for four of the watchdog and three that may arbitrate. -/
theorem effect_quiet_or (i : Instr) (s : State) :
    Quiet s (effect i s) ∨ i = .clearErrors ∨ i = .countError ∨ (∃ op, i = .guardedAttempt op) ∨ i = .initStep ∨
      i = .step ∨ i = .cycle ∨ i = .arbitrate := by
  cases i with
  | clearErrors | countError | guardedAttempt | initStep | step | cycle | arbitrate => simp
  | extract | pack | decodeId | encodeId | classify | regGet => exact .inl (.returns s _)
  | recognize | shouldRender | canRender | getName => exact .inl (.withSlot fun _ => .returns s _)
  | processFrame i _ p => exact .inl (.withSlot fun _ => processFrameAt_quiet p i s)
  | setUnits i u => exact .inl (.withSlot fun _ => setUnitsAt_quiet u i s)
  | render i => exact .inl (renderAt_quiet i s)
  | regSet n ch => exact .inl (regSet_quiet n ch s)
  | poll => exact .inl ((drawFrame_quiet s).trans (.returns _ _))
  | dispatch f => exact .inl (dispatch_quiet f s)
  | frameUnits f => exact .inl (unitBroadcast_quiet f s)
  | frameChannel f => exact .inl (processSlots_quiet _ _ s)
  | frameIgnored => exact .inl (.refl s)

/-! ## Moves -/

/-- MODE names a phase of the list, if it names one (R21, R22). -/
def Mode.Legal (p : Params) (m : Mode) : Prop := ∀ ph sub, m = .init ph sub → ph ∈ phaseList p

/-- What the effects of the instructions, CLEAR_ERRORS apart, are made of. -/
inductive Move : State → State → Prop
  | quiet {s t : State} : Quiet s t → Move s t
  | count {s : State} : s.mode ≠ .reset → Move s (countError s)
  | enter {s : State} {m : Mode} : s.mode ≠ .reset → m ≠ .reset → (s.mode.Legal s.params → m.Legal s.params) →
      Move s { s with mode := m }
  | arbitrate (s : State) : Move s (arbitrate s)

/-- A chain of moves. -/
abbrev Moves : State → State → Prop := Relation.ReflTransGen Move

theorem Quiet.moves (h : Quiet s t) : Moves s t := .single (.quiet h)

theorem advance_moves (ph : Phase) (h : s.mode ≠ .reset) : Moves s (advance ph s) := by
  unfold advance
  split
  · exact .single (.enter h nofun (fun _ => nofun))
  · next nx hn =>
    refine .single (.enter h nofun ?_)
    rintro - _ _ ⟨⟩
    exact nextPhase_mem hn

/-- A failure counts and, below the limit, moves to the backoff half of the phase (R131). -/
theorem attemptHalf_moves {ph : Phase} {k : State → State} (h : s.mode ≠ .reset)
    (hph : s.mode.Legal s.params → ph ∈ phaseList s.params) (hk : ∀ u, u.mode ≠ .reset → Moves u (k u)) :
    Moves s (attemptHalf ph k s) := by
  have hq := attemptOnce_quiet ph.op s
  have hu : (attemptOnce ph.op s).2.mode ≠ .reset := hq.mode_eq ▸ h
  have hc : Moves s (countError (attemptOnce ph.op s).2) := hq.moves.tail (.count hu)
  unfold attemptHalf
  dsimp only
  split
  · exact hq.moves.trans (hk _ hu)
  · split
    · exact hc
    · next hr =>
      refine hc.tail (.enter hr nofun ?_)
      rcases countError_cases (attemptOnce ph.op s).2 with ⟨-, e⟩ | ⟨-, e⟩
      · simp only [e, hq.mode_eq, hq.params_eq]
        rintro hl _ _ ⟨⟩
        exact hph hl
      · exact absurd (by rw [e]) hr

theorem initStep_moves (h : s.mode ≠ .reset) : Moves s (initStep s) := by
  unfold initStep
  split
  · next ph hm => exact attemptHalf_moves h (fun hl => hl _ _ hm) fun _ hu => advance_moves ph hu
  · next ph hm =>
    refine (Quiet.emit s (by simp) (by simp)).moves.tail (.enter h nofun ?_)
    rintro hl _ _ ⟨⟩
    exact hl _ _ hm
  · exact (Quiet.refuse s _).moves
  · exact (Quiet.refuse s _).moves

theorem guardedAttempt_moves {op : Op} (h : s.mode ≠ .reset) (hop : opListed s.params op = true) :
    Moves s (guardedAttempt op s) := by
  have hd : Moves s (driveOnce op s) := by
    unfold driveOnce
    split
    · exact initStep_moves h
    · exact attemptHalf_moves h (fun _ => opListed_iff.1 hop) fun _ _ => .refl
  rcases guardedAttempt_cases op s with ⟨-, e⟩ | ⟨-, e⟩ <;> rw [e]
  · exact hd
  · exact hd.tail (.quiet (.same rfl))

/-- CYCLE is quiet but for its arbitration, which comes last (R203). -/
theorem cycle_moves (s : State) : Moves s (cycle s) := by
  have hd := (drawFrame_quiet s).moves
  unfold cycle
  dsimp only
  split
  · exact hd.tail (.arbitrate _)
  · exact (hd.tail (.quiet (dispatch_quiet _ _))).tail (.arbitrate _)

theorem stepMode_moves (h : s.mode ≠ .reset) : Moves s (stepMode s) := by
  unfold stepMode
  split
  · exact initStep_moves h
  · exact cycle_moves s
  · exact .refl

theorem stepBlock_moves (h : s.mode ≠ .reset) : Moves s (stepBlock s) := by
  unfold stepBlock
  split
  · exact stepMode_moves h
  · split
    · exact (Quiet.refuse s _).moves
    · have hq : Quiet s { s with regLocked := true } := .same rfl
      exact hq.moves.trans (stepMode_moves h)

/-- The effect of every instruction but CLEAR_ERRORS, in a state that has a step, is a chain of moves. -/
theorem effect_moves {i : Instr} (h : s.mode ≠ .reset) (hs : Spelled s.params i) (hi : i ≠ .clearErrors) :
    Moves s (effect i s) := by
  rcases effect_quiet_or i s with hq | rfl | rfl | ⟨op, rfl⟩ | rfl | rfl | rfl | rfl
  · exact hq.moves
  · exact absurd rfl hi
  · exact .single (.count h)
  · exact guardedAttempt_moves h hs
  · exact initStep_moves h
  · exact stepBlock_moves h
  · simp only [effect]
    split
    · exact cycle_moves s
    · exact (Quiet.refuse s _).moves
  · exact .single (.arbitrate s)

/-- A step that answers next is a chain of moves, or one with CLEAR_ERRORS after it. -/
theorem step_moves (h : step s = .next t) : ∃ u, Moves s u ∧ (t = u ∨ u.mode ≠ .reset ∧ t = clearErrors u) := by
  obtain ⟨l, q, r, ⟨i, hi⟩ | ⟨c, -, rfl⟩⟩ := step_next h
  · obtain ⟨⟨-, -, hm⟩, hs, rfl⟩ := exec_next.1 hi
    have hq : Quiet s { s with issued := l, attemptIn := q, frameIn := r } := .same rfl
    by_cases hc : i = .clearErrors
    · subst hc
      exact ⟨_, hq.moves, .inr ⟨hm, rfl⟩⟩
    · exact ⟨_, hq.moves.trans (effect_moves hm hs hc), .inl rfl⟩
  · refine ⟨_, ?_, .inl rfl⟩
    exact Quiet.moves (.same rfl)

end Sys2Proof.Machine
end

section
/-! The invariant of a run is kept by each move and by CLEAR_ERRORS, and so by every step. -/

namespace Sys2Proof.Machine

variable {s t : State}

theorem State.Inv.quiet (h : s.Inv) (q : Quiet s t) : t.Inv := by
  obtain ⟨hs, ⟨l, he, hr, -⟩, hp, hm, hc, hw, hl⟩ := q
  exact {
    limit_pos := hp ▸ h.limit_pos
    limit_fits := hp ▸ h.limit_fits
    dirty_has_data := hs.dirty_ok h.dirty_has_data
    err_below := by rw [hm, hc, hp]; exact h.err_below
    err_at_limit := by rw [hm, hc, hp]; exact h.err_at_limit
    wdt_mode := by rw [hw, hm]; exact h.wdt_mode
    reset_once := by rw [he, hm, List.count_append, List.count_eq_zero_of_not_mem hr]; exact h.reset_once
    last_has_data := fun i hi => by
      obtain ⟨c, hg, hd⟩ := h.last_has_data i (hl ▸ hi)
      obtain ⟨d, hg', hcd⟩ := hs.get hg
      exact ⟨d, hg', hcd.data_kept hd⟩
    phase_legal := by rw [hm, hp]; exact h.phase_legal }

/-- Reaching the limit enters RESET with all that RESET asks for, in one write (R120, R311). -/
theorem State.Inv.countError (h : s.Inv) (hm : s.mode ≠ .reset) : (countError s).Inv := by
  have hlt := h.err_below hm
  rcases countError_cases s with ⟨hb, e⟩ | ⟨hb, e⟩ <;> rw [e]
  · exact { h with
      err_below := fun _ => hb
      err_at_limit := fun hr => absurd hr hm }
  · exact { h with
      err_below := fun hr => absurd rfl hr
      err_at_limit := fun _ => by show s.errCnt + 1 = s.params.wdtLimit; omega
      wdt_mode := by simp
      reset_once := by simp [h.reset_once, hm]
      phase_legal := nofun }

theorem State.Inv.clearErrors (h : s.Inv) (hm : s.mode ≠ .reset) : (clearErrors s).Inv :=
  { h with
    err_below := fun _ => h.limit_pos
    err_at_limit := fun hr => absurd hr hm }

theorem State.Inv.enter (h : s.Inv) {m : Mode} (hs : s.mode ≠ .reset) (hm : m ≠ .reset)
    (hl : m.Legal s.params) : State.Inv { s with mode := m } :=
  { h with
    err_below := fun _ => h.err_below hs
    err_at_limit := fun hr => absurd hr hm
    wdt_mode := by simp [h.wdt_mode, hs, hm]
    reset_once := by simp [h.reset_once, hs, hm]
    phase_legal := hl }

/-- Under the invariant ARBITRATE has nothing to clear: LAST names a slot with data, or none (R225). -/
theorem State.Inv.last_eq_none (h : s.Inv) (hn : ∀ c ∈ s.slots, c.hasData = false) : s.last = none := by
  refine Option.eq_none_iff_forall_ne_some.2 fun i hi => ?_
  obtain ⟨c, hc, hd⟩ := h.last_has_data i hi
  simp [hn c (List.mem_of_getElem? hc)] at hd

/-- ARBITRATE records in LAST the slot it shows, which has data. -/
theorem State.Inv.arbitrate (h : s.Inv) : (arbitrate s).Inv := by
  rcases arbitrate_cases s with ⟨i, c, hc, hd, e⟩ | e | ⟨hn, hl, -⟩
  · have hq : State.Inv { s with
        slots := s.slots.set i c.clean, events := s.events ++ [.render i c.value c.units] } :=
      h.quiet { slots := (set_clean_evolves hc).1, events := ⟨_, rfl, by simp, by simp⟩ }
    rw [e]
    exact { hq with
      last_has_data := by
        rintro _ ⟨⟩
        exact ⟨c.clean, by simp [(List.getElem?_eq_some_iff.1 hc).1], hd⟩ }
  · rwa [e]
  · exact absurd (h.last_eq_none hn) hl

theorem State.Inv.move (h : s.Inv) (m : Move s t) : t.Inv := by
  cases m with
  | quiet q => exact h.quiet q
  | count hm => exact h.countError hm
  | enter hs hm hl => exact h.enter hs hm (hl h.phase_legal)
  | arbitrate => exact h.arbitrate

theorem State.Inv.moves (h : s.Inv) (m : Moves s t) : t.Inv := by
  induction m with
  | refl => exact h
  | tail _ hm ih => exact ih.move hm

theorem State.Inv.step (h : s.Inv) (hn : step s = .next t) : t.Inv := by
  obtain ⟨u, hu, rfl | ⟨hm, rfl⟩⟩ := step_moves hn
  · exact h.moves hu
  · exact (h.moves hu).clearErrors hm

end Sys2Proof.Machine

open Sys2Proof.Machine

/-- Settles O47: a step is a chain of moves and perhaps CLEAR_ERRORS, and each keeps the invariant. -/
theorem stepKeepsInv : Obligations.StepKeepsInv := fun _ _ h => h.step

end

section
/-! What a chain of moves does to the slots, the event stream and ERR_CNT (R25, R34, R40). -/

namespace Sys2Proof.Machine

variable {s t : State}

theorem WatchdogWrites.slots_eq (h : WatchdogWrites s t) : t.slots = s.slots := by
  obtain ⟨m, e, w, l, q, d, rfl⟩ := h
  rfl

theorem WatchdogWrites.last_eq (h : WatchdogWrites s t) : t.last = s.last := by
  obtain ⟨m, e, w, l, q, d, rfl⟩ := h
  rfl

theorem Move.slotsEvolve (m : Move s t) : SlotsEvolve s.slots t.slots := by
  cases m with
  | quiet q => exact q.slots
  | count => exact (countError_writes s).slots_eq ▸ .refl _
  | enter => exact .refl _
  | arbitrate =>
    obtain ⟨sl, l, la, e, hs, -⟩ := arbitrate_form s
    exact e ▸ hs

theorem Moves.slotsEvolve (m : Moves s t) : SlotsEvolve s.slots t.slots := by
  induction m with
  | refl => exact .refl _
  | tail _ hm ih => exact ih.trans hm.slotsEvolve

/-- A move appends to the event stream; only an arbitration can append Clear, and not under the invariant. -/
theorem Move.events_append (m : Move s t) : ∃ l, t.events = s.events ++ l ∧ (s.Inv → .clear ∉ l) := by
  cases m with
  | quiet q =>
    obtain ⟨l, he, -, hc⟩ := q.events
    exact ⟨l, he, fun _ => hc⟩
  | count =>
    rcases countError_cases s with ⟨-, e⟩ | ⟨-, e⟩ <;> rw [e]
    · exact ⟨[], by simp⟩
    · exact ⟨[.hwReset], rfl, by simp⟩
  | enter => exact ⟨[], by simp⟩
  | arbitrate =>
    rcases arbitrate_cases s with ⟨i, c, -, -, e⟩ | e | ⟨hn, hl, e⟩ <;> rw [e]
    · exact ⟨_, rfl, by simp⟩
    · exact ⟨[], by simp⟩
    · exact ⟨_, rfl, fun h => absurd (h.last_eq_none hn) hl⟩

theorem Moves.events_append (m : Moves s t) : ∃ l, t.events = s.events ++ l ∧ (s.Inv → .clear ∉ l) := by
  induction m with
  | refl => exact ⟨[], by simp⟩
  | tail hm h ih =>
    obtain ⟨l, he, hc⟩ := ih
    obtain ⟨l', he', hc'⟩ := h.events_append
    exact ⟨l ++ l', by simp [he, he'], fun hi => by simp [hc hi, hc' (hi.moves hm)]⟩

theorem Move.errCnt_le (m : Move s t) : s.errCnt ≤ t.errCnt := by
  cases m with
  | quiet q => exact q.errCnt_eq.ge
  | count => rcases countError_cases s with ⟨-, e⟩ | ⟨-, e⟩ <;> simp [e]
  | enter => exact le_rfl
  | arbitrate =>
    obtain ⟨sl, l, la, e, -⟩ := arbitrate_form s
    simp [e]

theorem Moves.errCnt_le (m : Moves s t) : s.errCnt ≤ t.errCnt := by
  induction m with
  | refl => exact le_rfl
  | tail _ hm ih => exact ih.trans hm.errCnt_le

theorem cycle_errCnt (s : State) : (cycle s).errCnt = s.errCnt := by
  obtain ⟨sl, l, l', la, q, d, e, -⟩ := cycle_form s
  rw [e]

theorem arbitrate_errCnt (s : State) : (arbitrate s).errCnt = s.errCnt := by
  obtain ⟨sl, l, la, e, -⟩ := arbitrate_form s
  rw [e]

theorem initStep_last (s : State) : (initStep s).last = s.last := by
  rcases hm : s.mode with ⟨ph, sub⟩ | _ | _
  · exact (initStep_writes hm).last_eq
  · simp [initStep, hm]
  · simp [initStep, hm]

theorem guardedAttempt_last (op : Op) (s : State) : (guardedAttempt op s).last = s.last := by
  have hd := (driveOnce_writes op s).last_eq
  rcases guardedAttempt_cases op s with ⟨-, e⟩ | ⟨-, e⟩ <;> simpa [e] using hd

end Sys2Proof.Machine

open Sys2Proof Sys2Proof.Machine

/-- Settles O51: slots evolve under every move, and CLEAR_ERRORS writes none. -/
theorem hasDataNeverLost : Obligations.HasDataNeverLost := by
  intro s t i c h hc hd
  have hs : SlotsEvolve s.slots t.slots := by
    obtain ⟨u, hu, rfl | ⟨-, rfl⟩⟩ := step_moves h <;> exact (hu.slotsEvolve :)
  obtain ⟨d, hg, hcd⟩ := hs.get hc
  exact ⟨d, hg, hcd.data_kept hd⟩

/-- Settles O52: every move appends, and the one that could emit Clear has nothing to clear under the invariant. -/
theorem eventsOnlyAppendAndNeverClear : Obligations.EventsOnlyAppendAndNeverClear := by
  intro s t h
  obtain ⟨u, hu, rfl | ⟨-, rfl⟩⟩ := step_moves h <;> exact (hu.events_append :)

/-- Settles O53: no move lowers ERR_CNT, and only counting raises it. -/
theorem errorsOnlyCounted : Obligations.ErrorsOnlyCounted := by
  intro i s t h
  obtain ⟨⟨-, -, hm⟩, hs, rfl⟩ := exec_next.1 h
  refine ⟨fun hi => (effect_moves hm hs hi).errCnt_le, fun h1 h2 h3 h4 h5 => ?_⟩
  rcases effect_quiet_or i s with hq | e | e | ⟨op, e⟩ | e | e | rfl | rfl
  · exact hq.errCnt_eq
  · exact absurd e h1
  · exact absurd e h2
  · exact absurd e (h3 op)
  · exact absurd e h4
  · exact absurd e h5
  · simp only [effect]
    split
    · exact cycle_errCnt s
    · rfl
  · exact arbitrate_errCnt s

/-- Settles O54: quiet instructions and the watchdog's leave LAST alone; the others may arbitrate. -/
theorem lastWrittenByArbitrationOnly : Obligations.LastWrittenByArbitrationOnly := by
  intro i s t h ha hc hs
  obtain ⟨-, -, rfl⟩ := exec_next.1 h
  rcases effect_quiet_or i s with hq | rfl | rfl | ⟨op, rfl⟩ | rfl | e | e | e
  · exact hq.last_eq
  · rfl
  · exact (countError_writes s).last_eq
  · exact guardedAttempt_last op s
  · exact initStep_last s
  · exact absurd e hs
  · exact absurd e hc
  · exact absurd e ha

end

section
/-! A state that has no step stops whatever is issued (R42, R123, R308 check 1). -/

namespace Sys2Proof.Machine

/-- In a halted state every issue stops with the reason of check 1, spelled or not. -/
theorem step_halted {s : State} {r : Fault} (h : s.halted = some r) : step s = .fault r := by
  rcases hs : s.issued with _ | ⟨it, rest⟩
  · simp only [step, fetch, hs]
    exact exec_halted h .step
  have h' : State.halted { s with issued := rest } = some r := h
  rcases hd : decodeIssue (State.config { s with issued := rest }) it with (c | c | _) | i <;>
    simp only [step, fetch, fetchIssue, hs, hd]
  · exact guarded_halted h' _
  · exact unspelled_halted h' _
  · exact unspelled_halted h' _
  cases it with
  | command | frame => exact exec_halted h' i
  | stimulus st =>
    simp only [fetchStimulus, h', Option.isSome_some, Bool.true_or, if_true]
    exact exec_halted h' .step

end Sys2Proof.Machine

open Sys2Proof.Machine

/-- Settles O41: check 1 comes before every instruction and every refusal of the command port. -/
theorem haltedHasNoStep : Obligations.HaltedHasNoStep := by
  intro i s h
  obtain ⟨r, hr⟩ : ∃ r, s.halted = some r := by
    refine Option.ne_none_iff_exists'.1 fun hn => ?_
    obtain ⟨hf, hx, hm⟩ := (halted_none_iff s).1 hn
    simp [hf, hx, hm] at h
  exact ⟨⟨r, exec_halted hr i⟩, r, step_halted hr⟩

end

section
/-! The state after reset (R43). -/

namespace Sys2Proof.Machine

/-- Slot i of the reset state is freshly constructed, with channel i at it (R36). -/
theorem resetOf_getElem? (cfg : Config) (u : Units) (i : Nat) :
    (State.resetOf cfg u).slots[i]? = cfg.slots[i]?.map fun k => { Slot.constructed u k with reg := some i } := by
  simp [State.resetOf, State.beforeAssembly, Function.comp_def]

theorem resetOf_slot {cfg : Config} {u : Units} {i : Nat} {c : Slot} (h : (State.resetOf cfg u).slots[i]? = some c) :
    c.hasData = false ∧ c.dirty = false ∧ c.units = u ∧ c.reg = some i := by
  rw [resetOf_getElem?] at h
  obtain ⟨k, -, rfl⟩ := Option.map_eq_some_iff.1 h
  exact ⟨rfl, rfl, rfl, rfl⟩

theorem resetOf_mem {cfg : Config} {u : Units} {c : Slot} (h : c ∈ (State.resetOf cfg u).slots) :
    c.hasData = false ∧ c.dirty = false ∧ c.units = u := by
  obtain ⟨i, hi⟩ := List.getElem?_of_mem h
  obtain ⟨hd, hy, hu, -⟩ := resetOf_slot hi
  exact ⟨hd, hy, hu⟩

@[simp] theorem resetOf_config (cfg : Config) (u : Units) : (State.resetOf cfg u).config = cfg := by
  have hs : (State.resetOf cfg u).slots.map (·.const) = cfg.slots :=
    List.ext_getElem? fun i => by simp [resetOf_getElem?, Slot.constructed, Function.comp_def]
  rw [State.config, hs]
  rfl

end Sys2Proof.Machine

open Sys2Proof Sys2Proof.Machine

/-- Settles O48: no slot has data, nothing is counted and nothing emitted. -/
theorem resetHasInv : Obligations.ResetHasInv := by
  intro cfg u hpos hfits
  exact {
    limit_pos := hpos
    limit_fits := hfits
    dirty_has_data := fun c hc hd => by
      obtain ⟨-, hy, -⟩ := resetOf_mem hc
      simp [hy] at hd
    err_below := fun _ => hpos
    err_at_limit := nofun
    wdt_mode := ⟨nofun, nofun⟩
    reset_once := rfl
    last_has_data := nofun
    phase_legal := by
      rintro _ _ ⟨⟩
      simp [phaseList] }

/-- Settles O58: each register is read off the definition, each slot off the construction of its channel. -/
theorem resetValues : Obligations.ResetValues := by
  intro cfg u
  refine ⟨rfl, rfl, rfl, rfl, rfl, rfl, rfl, rfl, rfl, resetOf_config cfg u, fun _ => resetOf_mem, fun i c h => ?_⟩
  obtain ⟨-, -, -, hr⟩ := resetOf_slot h
  exact hr

end

section
/-! Decoding the issue that spells an instruction gives it back (R79, R83). -/

namespace Sys2Proof.Machine

/-! ## Each kind of operand field is read back as it was written -/

@[simp] theorem fieldOf_toNat {w : Nat} (x : BitVec w) : fieldOf w x.toNat = some x := by
  simp [fieldOf, x.isLt]

@[simp] theorem unitsOf_unitsBit (u : Units) : unitsOf (unitsBit u) = some u := by
  cases u <;> rfl

theorem opFields_length (op : Op) : (opFields op).length = 2 := by
  cases op <;> rfl

theorem opOf_opFields (op : Op) : opOf (operand (opFields op) 0) (operand (opFields op) 1) = some op := by
  cases op <;> rfl

theorem takeBytes_map_toNat (p : List Byte) : takeBytes p.length (p.map (·.toNat)) = some p := by
  induction p with
  | nil => rfl
  | cons b p ih => simp [takeBytes, ih]

theorem payloadOf_map_toNat {p : List Byte} (h : p.length ≤ maxPayload) :
    payloadOf p.length (p.map (·.toNat)) = some p := by
  rw [payloadOf, if_pos h, takeBytes_map_toNat]

/-! ## Rows -/

theorem decodeIssue_command_eq_ok {cfg : Config} {code : Byte} {op : Opcode} {ops : List Nat} {i : Instr}
    (hc : opcodeOf code = some op) (ho : decodeOperands op ops = some i) :
    decodeIssue cfg (.command code ops) = .ok i := by
  simp [decodeIssue, decodeCommand, hc, ho]

theorem decodeIssue_frame {cfg : Config} {f : Frame} (h : f.wf = true) :
    decodeIssue cfg (.frame f) = .ok (frameRow cfg f) :=
  if_pos h

/-- The row of a frame's class is spelled by the frame (R77). -/
theorem decodeIssue_encode_frameRow {cfg : Config} {i : Instr} {f : Frame} (he : encode i = .frame f)
    (hw : f.wf = true) (hi : i = frameRow cfg f) : decodeIssue cfg (encode i) = .ok i := by
  rw [he, decodeIssue_frame hw, ← hi]

end Sys2Proof.Machine

open Sys2Proof Sys2Proof.Machine

/-- Settles O46: the code of each row names its command, and each operand field is read back; a frame row is that of
its frame by hypothesis. -/
theorem decodeOfEncode : Obligations.DecodeOfEncode := by
  intro cfg i hw hf
  cases i
  case frameUnits f => exact decodeIssue_encode_frameRow rfl hw (hf f (.inl rfl))
  case frameChannel f => exact decodeIssue_encode_frameRow rfl hw (hf f (.inr (.inl rfl)))
  case frameIgnored f => exact decodeIssue_encode_frameRow rfl hw (hf f (.inr (.inr rfl)))
  case processFrame | dispatch =>
    refine decodeIssue_command_eq_ok rfl ?_
    simp [decodeOperands, operand, payloadFields, payloadOf_map_toNat (of_decide_eq_true hw)]
  case guardedAttempt op =>
    refine decodeIssue_command_eq_ok rfl ?_
    simp [decodeOperands, upTo, opFields_length, opOf_opFields]
  all_goals
    refine decodeIssue_command_eq_ok rfl ?_
    simp [decodeOperands, upTo, operand]

end

section
/-! DISPATCH reads the routed field and the payload of a frame, and nothing else (R73, R74). -/

namespace Sys2Proof.Machine

/-- The routed field is bits [25:13] of the identifier (R70). -/
theorem decodeIdent_target (id : Word) : (decodeIdent id).target = id.extractLsb' 13 13 := by
  have hm : ∀ k < 13, tgtMask.getLsbD (13 + k) = true := by decide
  have hs : tgtShift.toNat = 13 := rfl
  ext k hk
  simp [decodeIdent, extractField, ← BitVec.getLsbD_eq_getElem, hs, hm k hk, hk]

theorem decodeIdent_target_congr {a b : Word} (h : ∀ k, 13 ≤ k → k < 26 → a.getLsbD k = b.getLsbD k) :
    (decodeIdent a).target = (decodeIdent b).target := by
  rw [decodeIdent_target, decodeIdent_target]
  ext k hk
  simpa using h (13 + k) (by omega) (by omega)

theorem classOf_congr (cfg : Config) {a b : Word} (h : (decodeIdent a).target = (decodeIdent b).target) :
    classOf cfg a = classOf cfg b := by
  rw [classOf, classOf, h]

theorem unitBroadcast_congr {f g : Frame} (h : f.payload = g.payload) (s : State) :
    unitBroadcast f s = unitBroadcast g s := by
  simp only [unitBroadcast, unitNibble, h]

theorem dispatch_congr {f g : Frame} (hp : f.payload = g.payload)
    (ht : (decodeIdent f.id).target = (decodeIdent g.id).target) (s : State) : dispatch f s = dispatch g s := by
  simp only [dispatch, classOf_congr _ ht, unitBroadcast_congr hp, hp]

end Sys2Proof.Machine

open Sys2Proof.Machine

/-- Settles O9: the class of a frame is read off its target, and each branch of DISPATCH off the payload. -/
theorem unroutedBitsIgnored : Obligations.UnroutedBitsIgnored := by
  intro f g s hp hid
  have hd : dispatch f = dispatch g := funext (dispatch_congr hp (decodeIdent_target_congr hid))
  exact congrArg (guarded s) hd

end

section
/-! What a step does with each kind of issue (R80, R81, R83). -/

namespace Sys2Proof.Machine

variable {s : State} {it : Issue} {rest : List Issue}

theorem step_nothing_issued (h : s.issued = []) : step s = exec .step s := by
  simp [step, fetch, h]

theorem step_command {code : Byte} {ops : List Nat} {i : Instr} (hi : s.issued = .command code ops :: rest)
    (hd : decodeCommand code ops = .ok i) : step s = exec i { s with issued := rest } := by
  simp [step, fetch, hi, fetchIssue, decodeIssue, hd]

theorem step_frame {f : Frame} (hi : s.issued = .frame f :: rest) (hf : f.wf = true) :
    step s = exec (frameRow s.config f) { s with issued := rest } := by
  simp [step, fetch, hi, fetchIssue, decodeIssue_frame hf, State.config]

/-- A code outside the table is refused, and the issue is consumed (R81). -/
theorem step_unknownOp {c : Byte} (hi : s.issued = it :: rest)
    (hd : decodeIssue s.config it = .error (.unknownOp c)) (hr : s.Running) :
    step s = .next { s with issued := rest, refused := some (.unknownOp c) } := by
  have hd' : decodeIssue (State.config { s with issued := rest }) it = .error (.unknownOp c) := hd
  have hr' : State.Running { s with issued := rest } := hr
  simp [step, fetch, hi, fetchIssue, hd', guarded_running hr', State.refuse]

theorem step_badOperands {c : Byte} (hi : s.issued = it :: rest)
    (hd : decodeIssue s.config it = .error (.badOperands c)) (hr : s.Running) :
    step s = .refused (.malformedOperands c) := by
  have hd' : decodeIssue (State.config { s with issued := rest }) it = .error (.badOperands c) := hd
  have hr' : State.Running { s with issued := rest } := hr
  simp [step, fetch, hi, fetchIssue, hd', unspelled_running hr']

theorem step_badFrame (hi : s.issued = it :: rest) (hd : decodeIssue s.config it = .error .badFrame)
    (hr : s.Running) : step s = .refused .malformedFrame := by
  have hd' : decodeIssue (State.config { s with issued := rest }) it = .error .badFrame := hd
  have hr' : State.Running { s with issued := rest } := hr
  simp [step, fetch, hi, fetchIssue, hd', unspelled_running hr']

theorem longFrame_wf_eq_false {f : Frame} (h : 8 < f.payload.length) : f.wf = false :=
  decide_eq_false (Nat.not_le.2 h)

theorem decodeIssue_longFrame (cfg : Config) {f : Frame} (h : 8 < f.payload.length) :
    decodeIssue cfg (.frame f) = .error .badFrame := by
  simp [decodeIssue, longFrame_wf_eq_false h]

theorem decodeIssue_longStimulus (cfg : Config) {f : Frame} (h : 8 < f.payload.length) :
    decodeIssue cfg (.stimulus (.frame f)) = .error .badFrame := by
  simp [decodeIssue, Stimulus.wf, longFrame_wf_eq_false h]

/-- A code is in no row exactly when its number is none of the table's (R79, R81). -/
theorem opcodeOf_eq_none_iff {code : Byte} :
    opcodeOf code = none ↔ code.toNat ∉ opcodeTable.map (·.1.toNat) := by
  simp only [opcodeOf, Option.map_eq_none_iff, List.find?_eq_none, beq_iff_eq, List.mem_map, not_exists, not_and,
    BitVec.toNat_inj]

theorem decodeCommand_unknown {code : Byte} (h : opcodeOf code = none) (ops : List Nat) :
    decodeCommand code ops = .error (.unknownOp code) := by
  simp [decodeCommand, h]

end Sys2Proof.Machine

open Sys2Proof.Machine

/-- Settles O44: the table is searched for the code alone, so its operand fields are never read. -/
theorem unknownCodesRefused : Obligations.UnknownCodesRefused := by
  intro code ops hc
  have hd := decodeCommand_unknown (opcodeOf_eq_none_iff.2 hc) ops
  exact ⟨hd, fun s rest hr hi => step_unknownOp hi hd hr⟩

/-- Settles O42: one clause for each answer of the decoder. -/
theorem stepRunsDecoded : Obligations.StepRunsDecoded := by
  intro s
  refine ⟨step_nothing_issued, fun _ _ _ _ => step_command, fun f rest hi hl => step_frame hi (decide_eq_true hl),
    fun hr => ⟨fun code ops rest c hi hd => step_badOperands hi hd hr, ?_⟩⟩
  rintro f rest hl (hi | hi)
  · exact step_badFrame hi (decodeIssue_longFrame _ hl) hr
  · exact step_badFrame hi (decodeIssue_longStimulus _ hl) hr

/-- Settles O45: each word is looked up in the table and its operand fields are read. -/
theorem tableWordsDecode : Obligations.TableWordsDecode :=
  ⟨⟨rfl, rfl, rfl, rfl, rfl⟩, ⟨rfl, rfl, rfl, rfl⟩, ⟨rfl, rfl, rfl, rfl, rfl, rfl, rfl⟩, ⟨rfl, rfl⟩,
    ⟨rfl, rfl, rfl, rfl, rfl, rfl⟩, ⟨rfl, rfl, rfl⟩, ⟨rfl, rfl, rfl, rfl, rfl, rfl, rfl, rfl⟩⟩

end

section
/-! A stimulus is STEP with its answer at the port, or WRONG_MODE (R85, R306). -/

namespace Sys2Proof.Machine

theorem stimulus_wf_of_short {st : Stimulus} (h : ∀ f, st = .frame f → f.payload.length ≤ 8) : st.wf = true := by
  cases st
  case frame f => exact decide_eq_true (h f rfl)
  all_goals rfl

theorem stimulusFits_attempt {st : Stimulus} {ph : Phase} :
    stimulusFits st (.init ph .attempt) = decide (st = .ok ∨ st = .fail) := by
  cases st <;> simp [stimulusFits]

theorem stimulusFits_backoff {st : Stimulus} {ph : Phase} :
    stimulusFits st (.init ph .backoff) = decide (st = .wait) := by
  cases st <;> simp [stimulusFits]

/-- STEP's refusal when a check of the first step fails (R305). -/
theorem exec_step_configInvalid {s : State} {chk : ConfigCheck} (hr : s.Running) (hl : s.regLocked = false)
    (hc : configCheck s = some chk) : exec .step s = .next (s.refuse (.configInvalid chk)) := by
  rw [exec_running (i := .step) hr trivial]
  simp [effect, stepBlock, hl, hc]

/-- A stimulus met by a first step whose checks fail runs STEP without its answer (log 13). -/
theorem step_stimulus_configFails {s : State} {st : Stimulus} {rest : List Issue}
    (hi : s.issued = .stimulus st :: rest) (hw : st.wf = true) (hc : s.configFails = true) :
    step s = exec .step { s with issued := rest } := by
  have hc' : State.configFails { s with issued := rest } = true := hc
  simp [step, fetch_spelled_stimulus hi hw, fetchStimulus, hc']

end Sys2Proof.Machine

open Sys2Proof.Machine

/-- Settles O43: by the first step's checks, then MODE, then whether the stimulus fits it. -/
theorem stimulusIsStepWithItsAnswer : Obligations.StimulusIsStepWithItsAnswer := by
  intro s st rest hr hi hs
  have hw := stimulus_wf_of_short hs
  refine ⟨fun chk hl hc => ?_, fun hk => ?_⟩
  · have hf : s.configFails = true := by simp [State.configFails, hl, hc]
    exact (step_stimulus_configFails hi hw hf).trans (exec_step_configInvalid hr hl hc)
  have hc : s.configFails = false := hk.elim configFails_locked configFails_ok
  have hfit {m : Mode} (hm : s.mode = m) (h : stimulusFits st m = true) :=
    step_stimulus hi hw hr hc (hm ▸ h)
  have hwrong {m : Mode} (hm : s.mode = m) (h : stimulusFits st m = false) :
      step s = .next { s with issued := rest, refused := some (.wrongMode m) } := by
    subst hm
    exact step_stimulus_wrong hi hw hr hc h
  refine ⟨fun ph hm => ⟨?_, ?_, fun hok hfail => ?_⟩, fun ph hm => ⟨?_, fun hwait => ?_⟩,
    fun hm => ⟨?_, ?_, ?_, ?_⟩⟩
  · rintro rfl
    exact hfit hm rfl
  · rintro rfl
    exact hfit hm rfl
  · exact hwrong hm (by simp [stimulusFits_attempt, hok, hfail])
  · rintro rfl
    exact hfit hm rfl
  · exact hwrong hm (by simp [stimulusFits_backoff, hwait])
  · rintro rfl
    exact hfit hm rfl
  · rintro f rfl
    exact hfit hm rfl
  · rintro p sd n rfl
    exact hfit hm rfl
  · rintro (rfl | rfl | rfl) <;> exact hwrong hm rfl

end

section
/-! A channel command checks its slot operand before anything else (R83). -/

namespace Sys2Proof.Machine

/-- Each channel command is its slot operand's check, and then what it does to the slot. -/
theorem channelCommand_withSlot (i : Nat) (t : Addr) (p : List Byte) (u : Units) (s : State) :
    ∀ instr ∈ [Instr.recognize i t, .processFrame i t p, .shouldRender i, .canRender i, .render i, .setUnits i u,
        .getName i],
      Spelled s.params instr ∧ ∃ k, effect instr s = s.withSlot i k := by
  simp only [List.forall_mem_cons, List.not_mem_nil, false_imp_iff, implies_true, and_true]
  exact ⟨⟨trivial, _, rfl⟩, ⟨trivial, _, rfl⟩, ⟨trivial, _, rfl⟩, ⟨trivial, _, rfl⟩, ⟨trivial, _, rfl⟩,
    ⟨trivial, _, rfl⟩, trivial, _, rfl⟩

end Sys2Proof.Machine

open Sys2Proof.Machine

/-- Settles O24: a slot that is not there ends each of the seven in the refusal. -/
theorem badSlotRefused : Obligations.BadSlotRefused := by
  intro i t p u s hr hi instr hm
  obtain ⟨hs, k, hk⟩ := channelCommand_withSlot i t p u s instr hm
  rw [exec_running hr hs, hk, withSlot_none hi]
  rfl

end

section
/-! The mask round trip (R105), and the three fields of an identifier as bit ranges (R70, R102, R103). -/

namespace Sys2Proof.Machine

/-! ## Any mask with no bit below the shift -/

theorem getLsbD_false_of_mod_two_pow_eq_zero {mask : Word} {n k : Nat} (h : mask.toNat % 2 ^ n = 0) (hk : k < n) :
    mask.getLsbD k = false := by
  simpa [Nat.testBit_mod_two_pow, hk, BitVec.testBit_toNat] using congrArg (·.testBit k) h

/-- EXTRACT drops the bits below the shift, and no bit of the mask is there (R105, D4). -/
theorem packField_extractField (x : Word) {mask : Word} {shift : BitVec 5} (h : mask.toNat % 2 ^ shift.toNat = 0) :
    packField (extractField x mask shift) mask shift = x &&& mask := by
  refine BitVec.eq_of_getLsbD_eq fun k hk => ?_
  rcases Nat.lt_or_ge k shift.toNat with hlt | hge
  · simp [packField, getLsbD_false_of_mod_two_pow_eq_zero h hlt]
  · have hbit : (extractField x mask shift <<< shift.toNat).getLsbD k = (x &&& mask).getLsbD k := by
      simp [extractField, hk, hge]
    rw [packField, BitVec.getLsbD_and, hbit, BitVec.getLsbD_and, Bool.and_assoc, Bool.and_self]

/-! ## The mask of a field: n bits from the shift up -/

/-- The mask of the `n` bits from `shift` up. -/
def fieldMask (shift : BitVec 5) (n : Nat) : Word := (BitVec.allOnes n).setWidth 32 <<< shift.toNat

theorem prioMask_eq : prioMask = fieldMask prioShift 3 := rfl
theorem tgtMask_eq : tgtMask = fieldMask tgtShift 13 := rfl
theorem sndMask_eq : sndMask = fieldMask sndShift 13 := rfl

theorem extractField_fieldMask (x : Word) (shift : BitVec 5) (n : Nat) :
    (extractField x (fieldMask shift n) shift).setWidth n = x.extractLsb' shift.toNat n := by
  refine BitVec.eq_of_getLsbD_eq fun k hk => ?_
  rcases Nat.lt_or_ge (shift.toNat + k) 32 with hlt | hge
  · have : k < 32 := by omega
    simp [extractField, fieldMask, hk, hlt, this]
  · simp [extractField, hk, hge]

/-- PACK with the mask of a field truncates to the field and puts it in its place. -/
theorem packField_fieldMask (v : Word) (shift : BitVec 5) (n : Nat) :
    packField v (fieldMask shift n) shift = (v.setWidth n).setWidth 32 <<< shift.toNat := by
  rw [packField, fieldMask, ← BitVec.shiftLeft_and_distrib]
  congr 1
  ext k hk
  simp [hk, Bool.and_comm]

/-! ## The three fields (R70) -/

/-- DECODE_ID reads bits [28:26], [25:13] and [12:0] (R102). -/
theorem decodeIdent_eq (id : Word) :
    decodeIdent id = ⟨id.extractLsb' 26 3, id.extractLsb' 13 13, id.extractLsb' 0 13⟩ := by
  rw [← decodeIdent_target id, decodeIdent, prioMask_eq, sndMask_eq, extractField_fieldMask, extractField_fieldMask]
  rfl

/-- ENCODE_ID writes the fields side by side; bits [31:29] are 0 (R103). -/
theorem encodeIdent_eq (p t sd : Word) :
    encodeIdent p t sd = (p.setWidth 3 ++ t.setWidth 13 ++ sd.setWidth 13).setWidth 32 := by
  rw [encodeIdent, prioMask_eq, tgtMask_eq, sndMask_eq, packField_fieldMask, packField_fieldMask, packField_fieldMask,
    BitVec.setWidth_append_append_eq_shiftLeft_setWidth_or]
  congr 1
  exact BitVec.shiftLeft_zero _

theorem append_append_toNat {k m n : Nat} (a : BitVec k) (b : BitVec m) (c : BitVec n) :
    (a ++ b ++ c).toNat = a.toNat * 2 ^ (m + n) + b.toNat * 2 ^ n + c.toNat := by
  rw [BitVec.toNat_append, BitVec.toNat_append, ← Nat.shiftLeft_add_eq_or_of_lt b.isLt,
    ← Nat.shiftLeft_add_eq_or_of_lt c.isLt, Nat.shiftLeft_eq, Nat.shiftLeft_eq, Nat.add_mul, Nat.pow_add, Nat.mul_assoc]

theorem encodeIdent_toNat (p t sd : Word) :
    (encodeIdent p t sd).toNat = p.toNat % 2 ^ 3 * 2 ^ 26 + t.toNat % 2 ^ 13 * 2 ^ 13 + sd.toNat % 2 ^ 13 := by
  rw [encodeIdent_eq, BitVec.toNat_setWidth_of_le (by decide), append_append_toNat]
  simp only [BitVec.toNat_setWidth]

theorem decodeIdent_encodeIdent (p t sd : Word) :
    decodeIdent (encodeIdent p t sd) = ⟨p.setWidth 3, t.setWidth 13, sd.setWidth 13⟩ := by
  rw [encodeIdent_eq, decodeIdent_eq]
  congr 1
  · rw [BitVec.extractLsb'_setWidth_of_le (by decide), BitVec.extractLsb'_append_eq_of_le (by decide)]
    exact BitVec.extractLsb'_append_eq_left
  · rw [BitVec.extractLsb'_setWidth_of_le (by decide), BitVec.extractLsb'_append_eq_of_le (by decide)]
    exact BitVec.extractLsb'_append_eq_right
  · rw [BitVec.extractLsb'_setWidth_of_le (by decide)]
    exact BitVec.extractLsb'_append_eq_right

/-- PACK reads no bit of its value above the field, so a value may be truncated to the field first. -/
theorem packField_setWidth (v : Word) (shift : BitVec 5) (n : Nat) :
    packField ((v.setWidth n).setWidth 32) (fieldMask shift n) shift = packField v (fieldMask shift n) shift := by
  rw [packField_fieldMask, packField_fieldMask]
  congr 2
  ext k hk
  simpa [hk] using BitVec.lt_of_getLsbD

theorem fieldMask_mod_two_pow (shift : BitVec 5) (n : Nat) : (fieldMask shift n).toNat % 2 ^ shift.toNat = 0 := by
  rw [fieldMask, BitVec.toNat_shiftLeft, Nat.mod_mod_of_dvd _ (Nat.pow_dvd_pow 2 shift.isLt.le), Nat.shiftLeft_eq,
    Nat.mul_mod_left]

theorem packField_setWidth_extractField (id : Word) (shift : BitVec 5) (n : Nat) :
    packField (((extractField id (fieldMask shift n) shift).setWidth n).setWidth 32) (fieldMask shift n) shift =
      id &&& fieldMask shift n := by
  rw [packField_setWidth, packField_extractField id (fieldMask_mod_two_pow shift n)]

theorem encodeTriple_decodeIdent (id : Word) : encodeTriple (decodeIdent id) = id &&& 0x1FFFFFFF#32 := by
  have hmask : prioMask ||| tgtMask ||| sndMask = 0x1FFFFFFF#32 := by decide
  rw [← hmask, BitVec.and_or_distrib_left, BitVec.and_or_distrib_left]
  simp only [encodeTriple, encodeIdent, decodeIdent, prioMask_eq, tgtMask_eq, sndMask_eq,
    packField_setWidth_extractField]

end Sys2Proof.Machine

open Sys2Proof Sys2Proof.Machine

/-- Settles O6: the masks of the three fields meet the side condition, and the mask of the counterexample does not. -/
theorem maskRoundTrip : Obligations.MaskRoundTrip :=
  ⟨fun x _ _ h => packField_extractField x h,
    fun x => ⟨packField_extractField x (by decide), packField_extractField x (by decide),
      packField_extractField x (by decide)⟩,
    by decide⟩

/-- Settles O7: a triple's fields already fit, so truncating their zero extensions gives them back. -/
theorem fieldRoundTrip : Obligations.FieldRoundTrip := by
  refine ⟨decodeIdent_encodeIdent, fun x => ?_⟩
  rw [encodeTriple, decodeIdent_encodeIdent]
  simp

/-- Settles O8: the three field masks together are all bits but [31:29]. -/
theorem identifierRoundTrip : Obligations.IdentifierRoundTrip :=
  encodeTriple_decodeIdent

/-- Settles O1: the masked identifier is at most the mask, and the shift keeps the order. -/
theorem extractReturnsMaskedShift : Obligations.ExtractReturnsMaskedShift := by
  intro id mask shift s hr
  refine ⟨exec_running hr trivial, ?_⟩
  simp only [BitVec.le_def, BitVec.toNat_ushiftRight, BitVec.toNat_and, Nat.shiftRight_eq_div_pow]
  exact Nat.div_le_div_right Nat.and_le_right

/-- Settles O2: the value returned is `packField`'s, read as a number. -/
theorem packReturnsShiftedMasked : Obligations.PackReturnsShiftedMasked := by
  intro value mask shift s hr
  refine ⟨packField value mask shift, exec_running hr trivial, ?_⟩
  rw [packField, BitVec.toNat_and, BitVec.toNat_shiftLeft, Nat.shiftLeft_eq]

/-- Settles O3: each field is its bit range, read as a number. -/
theorem decodeIdReturnsFields : Obligations.DecodeIdReturnsFields := by
  intro id s hr
  refine ⟨decodeIdent id, exec_running hr trivial, ?_⟩
  simp [decodeIdent_eq, Nat.shiftRight_eq_div_pow]

/-- Settles O4: the value returned is `encodeIdent`'s, read as a number. -/
theorem encodeIdReturnsFieldsInPlace : Obligations.EncodeIdReturnsFieldsInPlace :=
  fun p t sd _ hr => ⟨encodeIdent p t sd, exec_running hr trivial, encodeIdent_toNat p t sd⟩

end

section
/-! The classification map in terms of the routed field and the slots of the state (R77, R104, R307). -/

namespace Sys2Proof.Machine

open Sys2Proof.Claims

theorem decodeIdent_target_toNat (id : Word) : (decodeIdent id).target.toNat = targetOf id := by
  rw [decodeIdent_target, BitVec.extractLsb'_toNat, Nat.shiftRight_eq_div_pow]
  rfl

theorem matchSlots_pairwise_lt (accept : List Nat) (t : Addr) : (matchSlots accept t).Pairwise (· < ·) :=
  List.pairwise_lt_range.filter _

theorem mem_matchSlots_target (s : State) (id : Word) (i : Nat) :
    i ∈ matchSlots s.config.accept (decodeIdent id).target ↔
      ∃ c, s.slots[i]? = some c ∧ c.const.acceptAddr = targetOf id := by
  rw [mem_matchSlots, config_accept_get, Option.map_eq_some_iff, decodeIdent_target_toNat]

theorem matchSlots_target_eq_nil_iff (s : State) (id : Word) :
    matchSlots s.config.accept (decodeIdent id).target = [] ↔ ∀ c ∈ s.slots, c.const.acceptAddr ≠ targetOf id := by
  simp only [List.eq_nil_iff_forall_not_mem, mem_matchSlots_target]
  constructor
  · intro h c hc ht
    obtain ⟨i, hi⟩ := List.getElem?_of_mem hc
    exact h i ⟨c, hi, ht⟩
  · rintro h i ⟨c, hi, ht⟩
    exact h c (List.mem_of_getElem? hi) ht

/-! ## The three branches of CLASSIFY -/

variable {s : State} {id : Word}

theorem classOf_units (hu : targetOf id = s.params.addrUnits) : classOf s.config id = .units := by
  rw [← decodeIdent_target_toNat] at hu
  exact if_pos hu

theorem classOf_not_units (hu : targetOf id ≠ s.params.addrUnits) :
    classOf s.config id =
      if matchSlots s.config.accept (decodeIdent id).target = [] then .ignored
      else .channels (matchSlots s.config.accept (decodeIdent id).target) := by
  rw [← decodeIdent_target_toNat] at hu
  exact if_neg hu

theorem classOf_channels (hu : targetOf id ≠ s.params.addrUnits) (h : ∃ c ∈ s.slots, c.const.acceptAddr = targetOf id) :
    classOf s.config id = .channels (matchSlots s.config.accept (decodeIdent id).target) := by
  obtain ⟨c, hc, ha⟩ := h
  rw [classOf_not_units hu, if_neg fun hn => (matchSlots_target_eq_nil_iff s id).1 hn c hc ha]

theorem classOf_ignored (hu : targetOf id ≠ s.params.addrUnits) (h : ∀ c ∈ s.slots, c.const.acceptAddr ≠ targetOf id) :
    classOf s.config id = .ignored := by
  rw [classOf_not_units hu, if_pos ((matchSlots_target_eq_nil_iff s id).2 h)]

theorem exec_classify (hr : s.Running) {k : FrameClass} (hk : classOf s.config id = k) :
    exec (.classify id) s = .next { s with ret := some (.frameClass k) } := by
  rw [exec_running (i := .classify id) hr trivial, ← hk]
  rfl

end Sys2Proof.Machine

open Sys2Proof.Machine

/-- Settles O5: by the branches of `classOf`; M is a filter of the slot numbers, so it rises. -/
theorem classifyFollowsMap : Obligations.ClassifyFollowsMap := by
  intro id s hr
  refine ⟨fun hu => exec_classify hr (classOf_units hu), fun hu h => ?_,
    fun hu h => exec_classify hr (classOf_ignored hu h)⟩
  exact ⟨_, exec_classify hr (classOf_channels hu h), matchSlots_pairwise_lt _ _, mem_matchSlots_target s id⟩

/-- Settles O32: the effect of FRAME_IGNORED is the identity. -/
theorem frameIgnoredChangesNothing : Obligations.FrameIgnoredChangesNothing :=
  fun _ _ hr => exec_running hr trivial

end

section
/-! An attempt and INIT_STEP in the terms of the statements (R130, R131, R133). -/

namespace Sys2Proof.Machine

open Sys2Proof.Claims

variable {s : State} {ph : Phase} {k : State → State}

/-! ## The draw -/

/-- The statements' attempt is the model's. -/
theorem attemptOnce_eq_drawFor (op : Op) (s : State) : attemptOnce op s = drawFor op s := by
  rcases h : s.attemptIn with _ | ⟨r, q⟩ <;> simp [attemptOnce, State.drawAttempt, drawFor, h, State.emit]

/-! ## The attempt half -/

/-- An attempt half is answered OK, or FAIL below the limit, or FAIL at it (R131, R127). -/
theorem attemptHalf_cases (ph : Phase) (k : State → State) (hm : s.mode ≠ .reset) :
    ((attemptOnce ph.op s).1 = .ok ∧ attemptHalf ph k s = k (attemptOnce ph.op s).2) ∨
    ((attemptOnce ph.op s).1 = .fail ∧ s.errCnt + 1 < s.params.wdtLimit ∧
      attemptHalf ph k s = { (attemptOnce ph.op s).2 with errCnt := s.errCnt + 1, mode := .init ph .backoff }) ∨
    ((attemptOnce ph.op s).1 = .fail ∧ s.params.wdtLimit ≤ s.errCnt + 1 ∧
      attemptHalf ph k s = { (attemptOnce ph.op s).2 with
        errCnt := s.errCnt + 1, wdtState := .reset, mode := .reset,
        events := (attemptOnce ph.op s).2.events ++ [.hwReset] }) := by
  cases ha : (attemptOnce ph.op s).1 with
  | ok => exact .inl ⟨rfl, attemptHalf_ok ha⟩
  | fail =>
    rcases Nat.lt_or_ge (s.errCnt + 1) s.params.wdtLimit with hb | hb
    · exact .inr (.inl ⟨rfl, hb, attemptHalf_below ha hm hb⟩)
    · exact .inr (.inr ⟨rfl, hb, attemptHalf_at_limit ha hb⟩)

/-! ## The move to the next phase -/

/-- DONE comes after DISPLAY_BEGIN only (R22). -/
theorem nextPhase_eq_none_iff {p : Params} : nextPhase p ph = none ↔ ph = .displayBegin := by
  cases ph <;> simp [nextPhase]

theorem nextPhase_ne {p : Params} {nx : Phase} (h : nextPhase p ph = some nx) : nx ≠ ph := by
  rintro rfl
  cases nx <;> grind [nextPhase, afterMasks]

theorem advance_of_none (h : nextPhase s.params ph = none) : advance ph s = { s with mode := .loop } := by
  simp only [advance, h]

theorem advance_of_some {nx : Phase} (h : nextPhase s.params ph = some nx) :
    advance ph s = { s with mode := .init nx .attempt } := by
  simp only [advance, h]

/-- A success writes MODE only, and leaves the phase. -/
theorem advance_leaves_phase (ph : Phase) (s : State) :
    ∃ m, advance ph s = { s with mode := m } ∧ m.inPhase ph = false := by
  rcases h : nextPhase s.params ph with _ | nx
  · exact ⟨.loop, advance_of_none h, rfl⟩
  · exact ⟨.init nx .attempt, advance_of_some h, decide_eq_false (nextPhase_ne h)⟩

/-! ## INIT_STEP -/

theorem initStep_attempt (hm : s.mode = .init ph .attempt) : initStep s = attemptHalf ph (advance ph) s := by
  simp only [initStep, hm, attemptStep]

theorem initStep_backoff (hm : s.mode = .init ph .backoff) :
    initStep s = { s with mode := .init ph .attempt, events := s.events ++ [.backoff] } := by
  simp only [initStep, hm, backoffStep, State.emit]

theorem exec_initStep (hr : s.Running) : exec .initStep s = .next (initStep s) := exec_running hr trivial

end Sys2Proof.Machine

open Sys2Proof Sys2Proof.Machine Sys2Proof.Claims

/-- Settles O10: below the limit only the counter is written, and at it the terminal reset is taken; from below the
limit the counter cannot pass it. -/
theorem countErrorCountsThenResets : Obligations.CountErrorCountsThenResets := by
  refine ⟨rfl, fun s hr _ => ?_⟩
  have ⟨_, _, hmode⟩ := hr
  have he : exec .countError s = .next (countError s) := exec_running hr trivial
  refine ⟨fun hb => by rw [he, countError_below hb], fun hb => by rw [he, countError_at_limit hb], fun hlt => ?_⟩
  refine ⟨_, he, ?_⟩
  rcases countError_cases s with ⟨hb, e⟩ | ⟨hb, e⟩ <;> rw [e]
  · exact ⟨hb.le, fun hm => absurd hm hmode⟩
  · have heq : s.errCnt + 1 = s.params.wdtLimit := by omega
    exact ⟨heq.le, fun _ => heq⟩

/-- Settles O11: the effect of CLEAR_ERRORS is that one write. -/
theorem clearErrorsZeroes : Obligations.ClearErrorsZeroes :=
  ⟨rfl, fun _ hr => exec_running hr trivial⟩

/-- Settles O13: a success is followed by the move to `next(ph)`, which is DONE for DISPLAY_BEGIN. -/
theorem initAttemptSuccessAdvances : Obligations.InitAttemptSuccessAdvances := by
  intro ph s hr hm hok
  rw [← attemptOnce_eq_drawFor] at hok ⊢
  obtain ⟨q, d, e⟩ := attemptOnce_form ph.op s
  rw [exec_initStep hr, initStep_attempt hm, attemptHalf_ok hok]
  refine ⟨fun hph => ?_, fun nx hnx => ?_⟩
  · rw [advance_of_none (nextPhase_eq_none_iff.2 hph)]
  · rw [advance_of_some (by rw [e]; exact hnx)]

/-- Settles O14: the two failures of the attempt half. -/
theorem initAttemptFailureCounts : Obligations.InitAttemptFailureCounts := by
  intro ph s hr hm hfail
  have ⟨_, _, hmode⟩ := hr
  rw [← attemptOnce_eq_drawFor] at hfail ⊢
  rw [exec_initStep hr, initStep_attempt hm]
  exact ⟨fun hb => by rw [attemptHalf_below hfail hmode hb], fun hb => by rw [attemptHalf_at_limit hfail hb]⟩

/-- Settles O15: INIT_STEP's backoff half. -/
theorem backoffReturnsToAttempt : Obligations.BackoffReturnsToAttempt := by
  intro ph s hr hm
  rw [exec_initStep hr, initStep_backoff hm]

/-- Settles O16: INIT_STEP has no half in LOOP, and CYCLE asks for LOOP. -/
theorem wrongModeRefused : Obligations.WrongModeRefused := by
  intro s hr
  refine ⟨fun hm => ?_, fun ph sub hm => ?_⟩
  · rw [exec_initStep hr]
    simp only [initStep, hm, State.refuse]
  · rw [exec_running (i := .cycle) hr trivial]
    simp only [effect, hm, reduceCtorEq, if_false, State.refuse]

/-- Settles O18: an address of 13 bits loses nothing when it is packed into bits [25:13] (R78). -/
theorem attemptCallArguments : Obligations.AttemptCallArguments := by
  intro p
  refine ⟨fun k w hw => by simp [callOf, maskWord, hw], fun k a ha hlt => ?_, rfl, rfl, rfl⟩
  refine ⟨packField (BitVec.ofNat 32 a) tgtMask tgtShift, by simp [callOf, filterWord, ha], ?_⟩
  have h32 : a * 2 ^ 13 < 2 ^ 32 := by omega
  rw [tgtMask_eq, packField_fieldMask]
  simp only [BitVec.toNat_shiftLeft, BitVec.toNat_setWidth, BitVec.toNat_ofNat, Nat.shiftLeft_eq,
    show tgtShift.toNat = 13 from rfl]
  omega

end

section
/-! LOOP is entered from DISPLAY_BEGIN alone, and an init step shows nothing (R134, R404). -/

namespace Sys2Proof.Machine

variable {s : State} {ph : Phase} {k : State → State}

/-- The answer to an attempt does not depend on the registry's lock. -/
theorem attemptOnce_answer_locked (op : Op) (s : State) :
    (attemptOnce op { s with regLocked := true }).1 = (attemptOnce op s).1 := by
  rcases h : s.attemptIn with _ | ⟨r, q⟩ <;> simp [attemptOnce, State.drawAttempt, h]

/-! ## Who enters LOOP -/

/-- An attempt half that ends in LOOP was answered OK, and what follows the success ends there. -/
theorem attemptHalf_enters_loop (hm : s.mode ≠ .reset) (h : (attemptHalf ph k s).mode = .loop) :
    (attemptOnce ph.op s).1 = .ok ∧ (k (attemptOnce ph.op s).2).mode = .loop := by
  rcases attemptHalf_cases ph k hm with ⟨hok, e⟩ | ⟨-, -, e⟩ | ⟨-, -, e⟩ <;> rw [e] at h
  · exact ⟨hok, h⟩
  · cases h
  · cases h

theorem advance_enters_loop (h : (advance ph s).mode = .loop) : ph = .displayBegin := by
  rcases hn : nextPhase s.params ph with _ | nx
  · exact nextPhase_eq_none_iff.1 hn
  · rw [advance_of_some hn] at h
    cases h

/-- `s` is in LOOP, or at the one attempt that enters it, and that is answered OK (R134). -/
def State.EntersLoop (s : State) : Prop :=
  s.mode = .loop ∨ s.mode = .init .displayBegin .attempt ∧ (attemptOnce .displayBegin s).1 = .ok

theorem initStep_enters_loop (hm : s.mode ≠ .reset) (h : (initStep s).mode = .loop) : s.EntersLoop := by
  rcases hs : s.mode with ⟨ph, _ | _⟩ | _ | _
  · rw [initStep_attempt hs] at h
    obtain ⟨hok, ha⟩ := attemptHalf_enters_loop hm h
    obtain rfl := advance_enters_loop ha
    exact .inr ⟨hs, hok⟩
  · rw [initStep_backoff hs] at h
    cases h
  · exact .inl hs
  · exact absurd hs hm

/-- A success of the driver outside its own phase leaves MODE (log 11). -/
theorem guardedAttempt_enters_loop {op : Op} (hm : s.mode ≠ .reset) (h : (guardedAttempt op s).mode = .loop) :
    s.EntersLoop := by
  have hd : (driveOnce op s).mode = .loop := by
    rcases guardedAttempt_cases op s with ⟨-, e⟩ | ⟨-, e⟩ <;> rw [e] at h <;> exact h
  unfold driveOnce at hd
  split at hd
  · exact initStep_enters_loop hm hd
  · obtain ⟨-, hk⟩ := attemptHalf_enters_loop hm hd
    exact .inl ((attemptOnce_quiet _ s).mode_eq ▸ hk)

/-- A STEP past the first step's checks is what MODE selects, with the registry locked (R205, R193). -/
theorem stepBlock_checked (h : s.regLocked = true ∨ s.ConfigOk) :
    stepBlock s = stepMode { s with regLocked := true } := by
  cases hl : s.regLocked with
  | true =>
    have hs : { s with regLocked := true } = s := by rw [← hl]
    rw [hs, stepBlock, if_pos hl]
  | false =>
    have hc : configCheck s = none := h.resolve_left (by simp [hl])
    simp [stepBlock, hl, hc]

theorem stepMode_init {sub : Sub} (hm : s.mode = .init ph sub) : stepMode s = initStep s := by
  simp only [stepMode, hm]

/-- A STEP in INIT refuses the configuration, or is INIT_STEP with the registry locked. -/
theorem stepBlock_init {sub : Sub} (hm : s.mode = .init ph sub) :
    (∃ c, stepBlock s = s.refuse c) ∨ stepBlock s = initStep { s with regLocked := true } := by
  by_cases h : s.regLocked = true ∨ s.ConfigOk
  · exact .inr ((stepBlock_checked h).trans (stepMode_init hm))
  · rw [not_or] at h
    obtain ⟨c, hc⟩ := Option.ne_none_iff_exists'.1 h.2
    exact .inl ⟨.configInvalid c, by simp [stepBlock, h.1, hc]⟩

theorem stepBlock_enters_loop (hm : s.mode ≠ .reset) (h : (stepBlock s).mode = .loop) : s.EntersLoop := by
  rcases hs : s.mode with ⟨ph, sub⟩ | _ | _
  · rcases stepBlock_init hs with ⟨c, e⟩ | e <;> rw [e] at h
    · exact .inl h
    · rcases initStep_enters_loop (s := { s with regLocked := true }) hm h with hl | ⟨hd, hok⟩
      · exact .inl hl
      · exact .inr ⟨hd, attemptOnce_answer_locked .displayBegin s ▸ hok⟩
  · exact .inl hs
  · exact absurd hs hm

/-- COUNT_ERROR leaves MODE or resets, ARBITRATE and CYCLE leave it. -/
theorem effect_enters_loop (i : Instr) (hm : s.mode ≠ .reset) (h : (effect i s).mode = .loop) : s.EntersLoop := by
  rcases effect_quiet_or i s with hq | rfl | rfl | ⟨op, rfl⟩ | rfl | rfl | rfl | rfl
  · exact .inl (hq.mode_eq ▸ h)
  · exact .inl h
  · rcases countError_cases s with ⟨-, e⟩ | ⟨-, e⟩ <;> simp only [effect, e] at h
    · exact .inl h
    · cases h
  · exact guardedAttempt_enters_loop hm h
  · exact initStep_enters_loop hm h
  · exact stepBlock_enters_loop hm h
  · by_cases hl : s.mode = .loop
    · exact .inl hl
    · simp only [effect, hl, if_false] at h
      exact .inl h
  · obtain ⟨sl, l, la, e, -⟩ := arbitrate_form s
    simp only [effect, e] at h
    exact .inl h

/-! ## What an init step emits -/

/-- The events of initialisation: attempts, backoffs and the reset (R40). -/
def Event.ofInit : Event → Bool
  | .attempt _ _ => true
  | .backoff => true
  | .hwReset => true
  | .render _ _ _ => false
  | .clear => false
  | .saveUnits _ => false

theorem initStep_events {sub : Sub} (hm : s.mode = .init ph sub) :
    ∃ l, (initStep s).events = s.events ++ l ∧ ∀ e ∈ l, e.ofInit = true := by
  cases sub with
  | backoff =>
    rw [initStep_backoff hm]
    exact ⟨[.backoff], rfl, by simp [Event.ofInit]⟩
  | attempt =>
    obtain ⟨q, d, hf⟩ := attemptOnce_form ph.op s
    obtain ⟨m, ha, -⟩ := advance_leaves_phase ph (attemptOnce ph.op s).2
    rw [initStep_attempt hm]
    rcases attemptHalf_cases ph (advance ph) (s := s) (by simp [hm]) with ⟨-, e⟩ | ⟨-, -, e⟩ | ⟨-, -, e⟩
    · exact ⟨[.attempt ph.op _], by rw [e, ha, hf], by simp [Event.ofInit]⟩
    · exact ⟨[.attempt ph.op _], by rw [e, hf], by simp [Event.ofInit]⟩
    · exact ⟨[.attempt ph.op _, .hwReset], by rw [e, hf]; exact List.append_assoc .., by simp [Event.ofInit]⟩

theorem WatchdogWrites.frameIn_eq {t : State} (h : WatchdogWrites s t) : t.frameIn = s.frameIn := by
  obtain ⟨m, e, w, l, q, d, rfl⟩ := h
  rfl

end Sys2Proof.Machine

open Sys2Proof Sys2Proof.Machine

/-- Settles O56: only a success of DISPLAY_BEGIN's attempt writes LOOP; and INIT_STEP writes the watchdog's fields
only and emits initialisation's events only. -/
theorem loopOnlyAfterDisplayBegin : Obligations.LoopOnlyAfterDisplayBegin := by
  refine ⟨fun i s t h hl => ?_, fun s t ph sub hm h => ?_⟩
  · obtain ⟨⟨-, -, hr⟩, -, rfl⟩ := exec_next.1 h
    rw [← attemptOnce_eq_drawFor]
    exact effect_enters_loop i hr hl
  · obtain ⟨-, -, rfl⟩ := exec_next.1 h
    rcases stepBlock_init hm with ⟨c, e⟩ | e <;> simp only [effect, e]
    · exact ⟨rfl, rfl, rfl, [], by simp⟩
    · have hm' : State.mode { s with regLocked := true } = .init ph sub := hm
      have hw := initStep_writes hm'
      obtain ⟨l, hl, hi⟩ := initStep_events hm'
      exact ⟨hw.frameIn_eq, hw.slots_eq, hw.last_eq, l, hl, fun hc => absurd (hi _ hc) (by simp [Event.ofInit]),
        fun i v u hc => absurd (hi _ hc) (by simp [Event.ofInit])⟩

end

section
/-! Runs that end within a bound, and the end of initialisation (R135). -/

namespace Sys2Proof.Machine

open Sys2Proof.Claims

/-! ## Bounded runs -/

/-- Within `n` steps from `s` the block reaches a state that meets `P`. -/
def ReachesWithin (P : State → Prop) (n : Nat) (s : State) : Prop :=
  ∃ k t, k ≤ n ∧ Host.Core.run core k s = .next t ∧ P t

variable {P : State → Prop} {n : Nat} {s t : State}

theorem ReachesWithin.now (h : P s) : ReachesWithin P n s := ⟨0, s, n.zero_le, rfl, h⟩

theorem ReachesWithin.after (hs : step s = .next t) (h : ReachesWithin P n t) : ReachesWithin P (n + 1) s := by
  obtain ⟨k, u, hk, hr, hp⟩ := h
  exact ⟨k + 1, u, Nat.succ_le_succ hk, (run_succ hs k).trans hr, hp⟩

theorem ReachesWithin.mono {m : Nat} (h : ReachesWithin P n s) (hn : n ≤ m) : ReachesWithin P m s := by
  obtain ⟨k, u, hk, hr, hp⟩ := h
  exact ⟨k, u, hk.trans hn, hr, hp⟩

/-! ## One step of initialisation -/

/-- The block steps by itself in phase number `j` of INIT, the first step's checks past or passing. -/
structure State.Initialising (s : State) (j : Nat) (ph : Phase) (sub : Sub) : Prop where
  running : s.Running
  nothing_issued : s.issued = []
  checked : s.regLocked = true ∨ s.ConfigOk
  mode_eq : s.mode = .init ph sub
  phase_at : (phaseList s.params)[j]? = some ph

/-- Initialisation has ended (R135). -/
def State.Initialised (s : State) : Prop := s.mode = .loop ∨ s.mode = .reset

variable {j : Nat} {ph : Phase} {sub : Sub}

theorem State.Initialising.locked (h : s.Initialising j ph sub) :
    State.Initialising { s with regLocked := true } j ph sub :=
  { h with checked := .inl rfl }

theorem State.Initialising.step_eq (h : s.Initialising j ph sub) :
    step s = .next (initStep { s with regLocked := true }) := by
  rw [step_nothing_issued h.nothing_issued, exec_running (i := .step) h.running trivial, effect,
    stepBlock_checked h.checked, stepMode_init h.locked.mode_eq]

theorem State.Initialising.index_lt (h : s.Initialising j ph sub) :
    j < 3 + s.params.maskValue.length + s.params.filterAddr.length :=
  phaseList_length s.params ▸ (List.getElem?_eq_some_iff.1 h.phase_at).1

/-- Each init step ends initialisation or takes one off R135's bound: a success moves on by one phase, a counted failure
costs its attempt and its backoff. -/
theorem State.Initialising.progress (h : s.Initialising j ph sub) (hl : s.regLocked = true) :
    (initStep s).Initialised ∨
      ∃ j' ph' sub', (initStep s).Initialising j' ph' sub' ∧ initBound (initStep s) j' sub' < initBound s j sub := by
  obtain ⟨⟨hf, hr, hne⟩, hi, hc, hm, hp⟩ := id h
  have hj := h.index_lt
  cases sub with
  | backoff =>
    rw [initStep_backoff hm]
    exact .inr ⟨j, ph, .attempt, ⟨⟨hf, hr, nofun⟩, hi, .inl hl, rfl, hp⟩, by simp [initBound]⟩
  | attempt =>
    obtain ⟨q, d, hd⟩ := attemptOnce_form ph.op s
    rw [initStep_attempt hm]
    rcases attemptHalf_cases ph (advance ph) hne with ⟨-, e⟩ | ⟨-, hb, e⟩ | ⟨-, -, e⟩ <;> rw [e, hd]
    · rcases hn : nextPhase s.params ph with _ | nx
      · exact .inl (.inl (by rw [advance_of_none (by exact hn)]))
      · have hp' := (nextPhase_eq_getElem? hp).symm.trans hn
        rw [advance_of_some (nx := nx) (by exact hn)]
        refine .inr ⟨j + 1, nx, .attempt, ⟨⟨hf, hr, nofun⟩, hi, .inl hl, rfl, hp'⟩, ?_⟩
        simp only [initBound]
        omega
    · refine .inr ⟨j, ph, .backoff, ⟨⟨hf, hr, nofun⟩, hi, .inl hl, rfl, hp⟩, ?_⟩
      simp [initBound]
      omega
    · exact .inl (.inr rfl)

theorem State.Initialising.reachesWithin (h : s.Initialising j ph sub) (hn : initBound s j sub ≤ n) :
    ReachesWithin State.Initialised n s := by
  induction n generalizing s j ph sub with
  | zero =>
    have hj := h.index_lt
    simp only [initBound] at hn
    omega
  | succ n ih =>
    refine .after h.step_eq ?_
    rcases h.locked.progress rfl with hd | ⟨j', ph', sub', h', hlt⟩
    · exact .now hd
    · exact ih h' (Nat.le_of_lt_succ (hlt.trans_le hn))

end Sys2Proof.Machine

open Sys2Proof Sys2Proof.Machine

/-- Settles O57: by induction on the bound, which every init step but a last one lowers. -/
theorem initialisationEnds : Obligations.InitialisationEnds :=
  fun _ _ _ _ _ hr hi hc hm hp => State.Initialising.reachesWithin ⟨hr, hi, hc, hm, hp⟩ le_rfl

end

section
/-! The retry driver: each step of its loop, and its return (R122, R127, R309). -/

namespace Sys2Proof.Machine

open Sys2Proof.Claims

variable {s : State} {op : Op} {rest : List Issue}

/-! ## One step of the loop -/

theorem guardedAttempt_returns (h : (driveOnce op s).mode.inPhase (opPhase op) = false) :
    guardedAttempt op s = driveOnce op s := by
  simp [guardedAttempt, h]

theorem guardedAttempt_goesOn {sub : Sub} (h : (driveOnce op s).mode = .init (opPhase op) sub) :
    guardedAttempt op s = (driveOnce op s).goesOn op := by
  simp [guardedAttempt, h, Mode.inPhase]

theorem driveOnce_own_phase {sub : Sub} (hm : s.mode = .init (opPhase op) sub) : driveOnce op s = initStep s := by
  simp [driveOnce, hm, Mode.inPhase]

theorem driveOnce_elsewhere (hm : ∀ sub, s.mode ≠ .init (opPhase op) sub) :
    driveOnce op s = attemptHalf (opPhase op) id s := by
  have hp : ¬ s.mode.inPhase (opPhase op) = true := fun h => (inPhase_iff.1 h).elim hm
  rw [driveOnce, if_neg hp]

/-- Outside the backoff half of its phase the driver attempts; only what follows a success depends on MODE. -/
theorem driveOnce_attempts (hm : s.mode ≠ .init (opPhase op) .backoff) :
    ∃ k, driveOnce op s = attemptHalf (opPhase op) k s := by
  by_cases ha : s.mode = .init (opPhase op) .attempt
  · exact ⟨_, (driveOnce_own_phase ha).trans (initStep_attempt ha)⟩
  · exact ⟨id, driveOnce_elsewhere fun sub => by cases sub <;> assumption⟩

theorem guardedAttempt_backoff (hm : s.mode = .init (opPhase op) .backoff) :
    guardedAttempt op s = { s with
      mode := .init (opPhase op) .attempt, events := s.events ++ [.backoff],
      issued := driverIssue op :: s.issued } := by
  have hd := (driveOnce_own_phase hm).trans (initStep_backoff hm)
  rw [guardedAttempt_goesOn (by rw [hd]), hd]
  rfl

/-- A success in the operation's own phase moves on as INIT_STEP does, so the driver returns. -/
theorem guardedAttempt_own_ok (hok : (attemptOnce op s).1 = .ok) (hm : s.mode = .init (opPhase op) .attempt) :
    guardedAttempt op s = advance (opPhase op) (attemptOnce op s).2 ∧
      initStep s = advance (opPhase op) (attemptOnce op s).2 := by
  have hi : initStep s = advance (opPhase op) (attemptOnce op s).2 := by
    rw [initStep_attempt hm, attemptHalf_ok (by simpa using hok), opPhase_op]
  have hd := (driveOnce_own_phase hm).trans hi
  obtain ⟨m, ha, hp⟩ := advance_leaves_phase (opPhase op) (attemptOnce op s).2
  exact ⟨(guardedAttempt_returns (by rw [hd, ha]; exact hp)).trans hd, hi⟩

theorem guardedAttempt_elsewhere_ok (hok : (attemptOnce op s).1 = .ok)
    (hm : ∀ sub, s.mode ≠ .init (opPhase op) sub) : guardedAttempt op s = (attemptOnce op s).2 := by
  have hd : driveOnce op s = (attemptOnce op s).2 := by
    rw [driveOnce_elsewhere hm, attemptHalf_ok (by simpa using hok), opPhase_op, id]
  have hp : (driveOnce op s).mode.inPhase (opPhase op) = false := by
    rw [hd, (attemptOnce_quiet op s).mode_eq, Bool.eq_false_iff]
    exact fun h => (inPhase_iff.1 h).elim hm
  rw [guardedAttempt_returns hp, hd]

theorem guardedAttempt_below (hfail : (attemptOnce op s).1 = .fail) (hr : s.mode ≠ .reset)
    (hm : s.mode ≠ .init (opPhase op) .backoff) (hb : s.errCnt + 1 < s.params.wdtLimit) :
    guardedAttempt op s = { (attemptOnce op s).2 with
      errCnt := s.errCnt + 1, mode := .init (opPhase op) .backoff, issued := driverIssue op :: s.issued } := by
  obtain ⟨k, hk⟩ := driveOnce_attempts hm
  obtain ⟨q, d, hf⟩ := attemptOnce_form op s
  rw [attemptHalf_below (by simpa using hfail) hr hb, opPhase_op] at hk
  rw [guardedAttempt_goesOn (by rw [hk]), hk, hf]
  rfl

theorem guardedAttempt_at_limit (hfail : (attemptOnce op s).1 = .fail)
    (hm : s.mode ≠ .init (opPhase op) .backoff) (hb : s.params.wdtLimit ≤ s.errCnt + 1) :
    guardedAttempt op s = { (attemptOnce op s).2 with
      errCnt := s.errCnt + 1, wdtState := .reset, mode := .reset,
      events := (attemptOnce op s).2.events ++ [.hwReset] } := by
  obtain ⟨k, hk⟩ := driveOnce_attempts hm
  rw [attemptHalf_at_limit (by simpa using hfail) hb, opPhase_op] at hk
  rw [guardedAttempt_returns (by rw [hk]; rfl), hk]

/-- A success writes MODE at most, beside what the attempt writes, and the driver returns. -/
theorem guardedAttempt_ok (hok : (attemptOnce op s).1 = .ok) (hm : s.mode ≠ .init (opPhase op) .backoff) :
    ∃ m, guardedAttempt op s = { (attemptOnce op s).2 with mode := m } := by
  by_cases ha : s.mode = .init (opPhase op) .attempt
  · obtain ⟨m, he, -⟩ := advance_leaves_phase (opPhase op) (attemptOnce op s).2
    exact ⟨m, (guardedAttempt_own_ok hok ha).1.trans he⟩
  · exact ⟨_, guardedAttempt_elsewhere_ok hok fun sub => by cases sub <;> assumption⟩

theorem exec_guardedAttempt (hr : s.Running) (hop : opPhase op ∈ phaseList s.params) :
    exec (.guardedAttempt op) s = .next (guardedAttempt op s) :=
  exec_running hr (opListed_iff.2 hop)

/-! ## The driver returns -/

/-- The driver has left the command port, having reset or with the counter below the limit. -/
def Returned (rest : List Issue) (limit : Nat) (t : State) : Prop :=
  t.issued = rest ∧ (t.mode = .reset ∨ t.errCnt < limit)

/-- The driver waits at the head of the command port. -/
structure State.Driving (s : State) (op : Op) (rest : List Issue) : Prop where
  running : s.Running
  listed : opPhase op ∈ phaseList s.params
  issued_eq : s.issued = driverIssue op :: rest

theorem State.Driving.step_eq (h : s.Driving op rest) :
    step s = .next (guardedAttempt op { s with issued := rest }) :=
  (step_command h.issued_eq (decode_guardedAttempt op)).trans (exec_guardedAttempt h.running h.listed)

/-- The backoff half takes one step, to the attempt half of the same phase. -/
theorem State.Driving.step_backoff (h : s.Driving op rest) (hm : s.mode = .init (opPhase op) .backoff) :
    ∃ t, step s = .next t ∧ t.Driving op rest ∧ t.mode = .init (opPhase op) .attempt ∧ t.errCnt = s.errCnt ∧
      t.params = s.params := by
  obtain ⟨⟨hf, hr, -⟩, hl, -⟩ := id h
  have he := guardedAttempt_backoff (s := { s with issued := rest }) hm
  exact ⟨_, h.step_eq.trans (congrArg _ he), ⟨⟨hf, hr, nofun⟩, hl, rfl⟩, rfl, rfl, rfl⟩

/-- An attempt ends the driver, or is a failure below the limit, which is counted and goes to the backoff half. -/
theorem State.Driving.step_attempt (h : s.Driving op rest) (hm : s.mode ≠ .init (opPhase op) .backoff)
    (hlt : s.errCnt < s.params.wdtLimit) :
    ∃ t, step s = .next t ∧
      (Returned rest s.params.wdtLimit t ∨
        t.Driving op rest ∧ t.mode = .init (opPhase op) .backoff ∧ t.errCnt = s.errCnt + 1 ∧ t.params = s.params ∧
          s.errCnt + 1 < s.params.wdtLimit) := by
  obtain ⟨⟨hf, hr, hne⟩, hl, -⟩ := id h
  refine ⟨_, h.step_eq, ?_⟩
  obtain ⟨q, d, hd⟩ := attemptOnce_form op { s with issued := rest }
  cases ha : (attemptOnce op { s with issued := rest }).1 with
  | ok =>
    obtain ⟨m, e⟩ := guardedAttempt_ok ha hm
    rw [e, hd]
    exact .inl ⟨rfl, .inr hlt⟩
  | fail =>
    rcases Nat.lt_or_ge (s.errCnt + 1) s.params.wdtLimit with hb | hb
    · rw [guardedAttempt_below ha hne hm hb, hd]
      exact .inr ⟨⟨⟨hf, hr, nofun⟩, hl, rfl⟩, rfl, rfl, rfl, hb⟩
    · rw [guardedAttempt_at_limit ha hm hb, hd]
      exact .inl ⟨rfl, .inl rfl⟩

/-- With `d + 1` failures left before the limit: one attempt, and two steps for each of the other `d`. -/
theorem State.Driving.returned_of_attempt {d : Nat} (h : s.Driving op rest)
    (hm : s.mode ≠ .init (opPhase op) .backoff) (hd : s.errCnt + (d + 1) = s.params.wdtLimit) :
    ReachesWithin (Returned rest s.params.wdtLimit) (2 * d + 1) s := by
  induction d generalizing s with
  | zero =>
    obtain ⟨t, hs, ht | ⟨-, -, -, -, hb⟩⟩ := h.step_attempt hm (by omega)
    · exact .after hs (.now ht)
    · omega
  | succ d ih =>
    obtain ⟨t, hs, ht | ⟨hD, hback, he, hp, -⟩⟩ := h.step_attempt hm (by omega)
    · exact .after hs (.now ht)
    · obtain ⟨u, hs', hD', hatt, he', hp'⟩ := hD.step_backoff hback
      have hpu : u.params = s.params := hp'.trans hp
      have hu := ih hD' (by simp [hatt]) (by rw [he', he, hpu]; omega)
      exact .after hs (.after hs' (hpu ▸ hu))

/-- Wherever its loop stands, the driver has returned within two steps for each failure left before the limit. -/
theorem State.Driving.returned (h : s.Driving op rest) (hlt : s.errCnt < s.params.wdtLimit) :
    ReachesWithin (Returned rest s.params.wdtLimit) (2 * (s.params.wdtLimit - s.errCnt)) s := by
  obtain ⟨d, hd⟩ : ∃ d, s.errCnt + (d + 1) = s.params.wdtLimit := ⟨s.params.wdtLimit - s.errCnt - 1, by omega⟩
  have hn : 2 * d + 1 + 1 = 2 * (s.params.wdtLimit - s.errCnt) := by omega
  rw [← hn]
  by_cases hm : s.mode = .init (opPhase op) .backoff
  · obtain ⟨t, hs, hD, hatt, he, hp⟩ := h.step_backoff hm
    have ht := hD.returned_of_attempt (d := d) (by simp [hatt]) (by rw [he, hp]; exact hd)
    exact .after hs (hp ▸ ht)
  · exact (h.returned_of_attempt hm hd).mono (Nat.le_succ _)

end Sys2Proof.Machine

open Sys2Proof Sys2Proof.Machine

/-- Settles O12: a step of the driver is a half of the init step, whose own lemmas give each clause; its loop ends since
every second step counts a failure. -/
theorem guardedAttemptRetriesUntilSuccessOrReset : Obligations.GuardedAttemptRetriesUntilSuccessOrReset := by
  intro op s hr
  have ⟨_, _, hne⟩ := hr
  rw [← attemptOnce_eq_drawFor]
  refine ⟨fun hop => ?_, fun hop => ?_⟩
  · have he := exec_guardedAttempt hr hop
    refine ⟨fun hm => ?_, fun hok hm => ?_, fun hok hm => ?_, fun hfail hm hb => ?_, fun hfail hm hb => ?_,
      fun rest hi hlt => State.Driving.returned ⟨hr, hop, hi⟩ hlt⟩
    · rw [he, guardedAttempt_backoff hm]
    · obtain ⟨hg, hs⟩ := guardedAttempt_own_ok hok hm
      rw [he, exec_initStep hr, hg, hs]
    · rw [he, guardedAttempt_elsewhere_ok hok hm]
    · rw [he, guardedAttempt_below hfail hne hm hb]
    · rw [he, guardedAttempt_at_limit hfail hm hb]
  · rw [exec_unlisted (by rwa [← Bool.not_eq_true, opListed_iff]), unspelled_running hr]

end

section
/-! The commands on a slot that is there (R160 to R168). -/

namespace Sys2Proof.Machine

variable {s : State} {i : Nat} {c : Slot}

/-- A command that checks its slot operand does, on a slot that is there, what follows the check (R83). -/
theorem exec_withSlot_some (instr : Instr) {k : Slot → State} (hr : s.Running) (hs : Spelled s.params instr)
    (he : effect instr s = s.withSlot i k) (hc : s.slots[i]? = some c) : exec instr s = .next (k c) := by
  rw [exec_running hr hs, he, withSlot_some hc]

/-- Writing to a slot what it holds changes nothing. -/
theorem modSlot_of_fixed {g : Slot → Slot} (hc : s.slots[i]? = some c) (hg : g c = c) : s.modSlot i g = s := by
  obtain ⟨hi, rfl⟩ := List.getElem?_eq_some_iff.1 hc
  rw [modSlot_of_some hc, hg, List.set_getElem_self]

theorem Slot.process_rejected {p : List Byte} (h : runDecoder c.const.decoder p = none) : Slot.process p c = c := by
  simp [Slot.process, h]

theorem Slot.process_decoded {p : List Byte} {v : Value} (h : runDecoder c.const.decoder p = some v) :
    Slot.process p c = c.take v := by
  simp [Slot.process, h]

end Sys2Proof.Machine

open Sys2Proof.Machine

/-- Settles O19: each query passes its slot check and returns one flag or constant of the slot. -/
theorem channelQueriesAnswer : Obligations.ChannelQueriesAnswer := by
  intro i t s c hr hc
  exact ⟨exec_withSlot_some (.recognize i t) hr trivial rfl hc, exec_withSlot_some (.shouldRender i) hr trivial rfl hc,
    exec_withSlot_some (.canRender i) hr trivial rfl hc, exec_withSlot_some (.getName i) hr trivial rfl hc⟩

/-- Settles O20: the slot is written with itself where the decoder rejects, and else takes the value. -/
theorem processFrameStoresValue : Obligations.ProcessFrameStoresValue := by
  intro i t p s c hr hc
  rw [exec_withSlot_some (.processFrame i t p) hr trivial rfl hc, processFrameAt]
  refine ⟨fun hd => ?_, fun v hd => ?_⟩
  · rw [modSlot_of_fixed hc (Slot.process_rejected hd)]
  · rw [modSlot_of_some hc, Slot.process_decoded hd]
    rfl

/-- Settles O21: RENDER on a slot with data, as arbitration uses it. -/
theorem renderShowsAndCleans : Obligations.RenderShowsAndCleans := by
  intro i s c hr hc hd
  rw [exec_running (i := .render i) hr trivial, effect, renderAt_data hc hd]
  rfl

/-- Settles O23: the slot that is there is replaced by the one with the units. -/
theorem setUnitsMarksAvailable : Obligations.SetUnitsMarksAvailable := by
  intro i u s c hr hc
  rw [exec_withSlot_some (.setUnits i u) hr trivial rfl hc, setUnitsAt, modSlot_of_some hc]
  rfl

end

section
/-! The rounding of the Temperature readings (R170, R171). -/

namespace Sys2Proof.Machine

/-- Tenths are rounded to an integer within one half, a tie going up only above zero and down only below it. -/
theorem roundHalfAway_tenths (num : Int) :
    (-5 ≤ 10 * roundHalfAway num 10 - num ∧ 10 * roundHalfAway num 10 - num ≤ 5) ∧
    (10 * roundHalfAway num 10 - num = 5 → 0 < roundHalfAway num 10) ∧
    (10 * roundHalfAway num 10 - num = -5 → roundHalfAway num 10 < 0) := by
  unfold roundHalfAway
  split
  case isTrue hnonneg => omega
  case isFalse hneg => omega

end Sys2Proof.Machine

open Sys2Proof.Machine

/-- Settles O60: 1.8 C is nine tenths of twice C, whose rounding is the integer n. -/
theorem temperatureReadings : Obligations.TemperatureReadings := by
  intro b
  obtain ⟨⟨hlo, hhi⟩, hup, hdown⟩ := roundHalfAway_tenths (9 * celsiusTwice b)
  exact ⟨rfl, _, rfl, hlo, hhi, hup, hdown⟩

end

section
/-! The registry's commands: a REG_SET comes to exactly one of R191's four outcomes, each with its condition. -/

namespace Sys2Proof.Machine

variable {s : State} {n ch : Nat} {c : Slot}

theorem regSet_locked (hl : s.regLocked = true) : regSet n ch s = s.refuse (.regSetAfterStart n) := if_pos hl

theorem regSet_out_of_range (hl : s.regLocked = false) (hn : s.slots.length ≤ n) :
    regSet n ch s = s.refuse (.regSetOutOfRange n) := by
  have hnone : s.slots[n]? = none := List.getElem?_eq_none hn
  simp [regSet, hl, hnone]

theorem regSet_set (hl : s.regLocked = false) (hc : s.slots[n]? = some c) (hset : c.reg ≠ none) :
    regSet n ch s = s.refuse (.regSetTwice n) := by
  have hsome : c.reg.isSome := Option.isSome_iff_ne_none.2 hset
  simp [regSet, hl, hc, hsome]

theorem regSet_unset (hl : s.regLocked = false) (hc : s.slots[n]? = some c) (hunset : c.reg = none) :
    regSet n ch s = { s with slots := s.slots.set n { c with reg := some ch } } := by
  rw [← modSlot_of_some hc fun c => { c with reg := some ch }]
  simp [regSet, hl, hc, hunset]

theorem exec_regGet (hr : s.Running) :
    exec (.regGet n) s = .next { s with ret := some (.lookup (s.slots[n]?.map (·.reg))) } :=
  exec_running hr trivial

theorem exec_regSet (hr : s.Running) : exec (.regSet n ch) s = .next (regSet n ch s) := exec_running hr trivial

end Sys2Proof.Machine

open Sys2Proof.Machine

/-- Settles O25: an index below N finds its slot, and one at or beyond N finds none. -/
theorem regGetBoundsChecked : Obligations.RegGetBoundsChecked := by
  intro n s hr
  refine ⟨fun c hc => ?_, fun hn => ?_⟩
  · rw [exec_regGet hr, hc, Option.map_some]
  · rw [exec_regGet hr, List.getElem?_eq_none hn, Option.map_none]

/-- Settles O26: all three checks pass, and the slot that is there is replaced by the one with the entry. -/
theorem regSetWritesUnsetSlot : Obligations.RegSetWritesUnsetSlot := by
  intro n ch s c hr hl hc hunset
  rw [exec_regSet hr, regSet_unset hl hc hunset]

/-- Settles O27: each refusal is the first of R191's checks that fails. -/
theorem regSetRefusals : Obligations.RegSetRefusals := by
  intro n ch s hr
  rw [exec_regSet hr]
  exact ⟨fun hl => congrArg _ (regSet_locked hl), fun hl hn => congrArg _ (regSet_out_of_range hl hn),
    fun c hl hc hset => congrArg _ (regSet_set hl hc hset)⟩

end

section
/-! POLL in each state of its port (R202, R11). -/

namespace Sys2Proof.Machine

variable {s : State}

theorem drawFrame_free (h : s.frameIn = []) :
    s.drawFrame = ((freePoll s.draws).map carriedFrame, { s with draws := s.draws + 1 }) := by
  simp [State.drawFrame, h]

theorem map_carriedFrame_of_short {r : Option Frame} (h : ∀ f, r = some f → f.payload.length ≤ 8) :
    r.map carriedFrame = r := by
  cases r with
  | none => rfl
  | some f => exact congrArg some (carriedFrame_of_short (h f rfl))

/-- POLL returns what the draw answers, in the state it leaves. -/
theorem exec_poll (hr : s.Running) {r : Option Frame} {t : State} (hd : s.drawFrame = (r, t)) :
    exec .poll s = .next (t.returns (.polled r)) := by
  rw [exec_running (i := .poll) hr trivial, effect, hd]

end Sys2Proof.Machine

open Sys2Proof.Machine

/-- Settles O28: the draw takes what waits, as the port carries it, or a free answer, and the port carries at most 8
bytes of either. -/
theorem pollTakesOneAnswer : Obligations.PollTakesOneAnswer := by
  intro s hr
  refine ⟨fun r rest hs hshort => ?_, fun f rest hs _ => exec_poll hr (drawFrame_waiting hs), fun hs => ?_⟩
  · have hd := drawFrame_waiting hs
    rw [map_carriedFrame_of_short hshort] at hd
    exact exec_poll hr hd
  · have hd := drawFrame_free hs
    exact ⟨_, fun f hf => drawFrame_short (by rw [hd]; exact hf), exec_poll hr hd⟩

end

section
/-! A unit broadcast by the low nibble of payload byte 0 (R201, R76, R6). -/

namespace Sys2Proof.Machine

open Sys2Proof.Claims

variable {s : State} {f : Frame} {b : Byte} {rest : List Byte}

/-- The model's unit table is the statements'. -/
theorem unitsOfNibble_eq_unitAt (p : Params) (n : BitVec 4) : unitsOfNibble p n = unitAt p n.toNat := by
  unfold unitsOfNibble
  split
  · next h => simp [unitAt, h]
  · next h => simp [unitAt, h]
  · next k h => simp [unitAt, h]

/-- A frame with a payload byte names the unit at the low nibble of byte 0. -/
theorem broadcastUnit_of_cons (p : Params) (h : f.payload = b :: rest) :
    (unitNibble f).bind (unitsOfNibble p) = unitAt p (b.toNat % 16) := by
  have hn : (b.extractLsb' 0 4).toNat = b.toNat % 16 := by simp
  rw [unitNibble, h, Option.bind_some, unitsOfNibble_eq_unitAt, hn]

theorem broadcastUnit_of_nil (p : Params) (h : f.payload = []) : (unitNibble f).bind (unitsOfNibble p) = none := by
  rw [unitNibble, h, Option.bind_none]

/-- A broadcast that names no unit is ignored (D39). -/
theorem unitBroadcast_ignored (h : (unitNibble f).bind (unitsOfNibble s.params) = none) : unitBroadcast f s = s := by
  rcases unitBroadcast_cases f s with ⟨e, -⟩ | ⟨u, hu, -⟩
  · exact e
  · simp [h] at hu

/-- A broadcast that names a unit gives it to every slot and saves it once. -/
theorem unitBroadcast_mapped {u : Units} (h : (unitNibble f).bind (unitsOfNibble s.params) = some u) :
    unitBroadcast f s = { s with slots := s.slots.map (Slot.withUnits u), events := s.events ++ [.saveUnits u] } := by
  rcases unitBroadcast_cases f s with ⟨-, hu⟩ | ⟨v, hv, e⟩
  · simp [h] at hu
  · obtain rfl := Option.some.inj (h.symm.trans hv)
    exact e

theorem exec_frameUnits (hr : s.Running) : exec (.frameUnits f) s = .next (unitBroadcast f s) :=
  exec_running hr trivial

end Sys2Proof.Machine

open Sys2Proof.Machine

/-- Settles O30: by the unit the frame names, if it names one. -/
theorem frameUnitsBroadcasts : Obligations.FrameUnitsBroadcasts := by
  intro f s hr
  rw [exec_frameUnits hr]
  refine ⟨fun hp => by rw [unitBroadcast_ignored (broadcastUnit_of_nil _ hp)], fun b rest hp => ?_⟩
  have hb := broadcastUnit_of_cons s.params hp
  refine ⟨fun h1 => ?_, fun hn => by rw [unitBroadcast_ignored (hb.trans hn)],
    fun u hu => congrArg _ (unitBroadcast_mapped (hb.trans hu))⟩
  rw [h1]
  exact ⟨s.params.unitsOfNibble.one, rfl⟩

end

section
/-! DISPATCH by the class of the frame, each slot judged by its own accepted address (R200, R77, R192). -/

namespace Sys2Proof.Machine

open Sys2Proof.Claims

variable {s : State} {f : Frame}

/-- The statements' slot after a payload is the model's. -/
theorem Slot.process_eq_afterPayload (p : List Byte) (c : Slot) : Slot.process p c = afterPayload p c := by
  rcases h : runDecoder c.const.decoder p with _ | v
  · rw [Slot.process_rejected h, afterPayload, h]
  · rw [Slot.process_decoded h, afterPayload, h]
    rfl

/-- The slots of M are those whose accepted address is the target, so M is left out of the result. -/
theorem processSlots_target (f : Frame) (s : State) :
    processSlots (matchSlots s.config.accept (frameTarget f)) f.payload s =
      { s with
        slots := s.slots.map fun c => if c.const.acceptAddr = targetOf f.id then afterPayload f.payload c else c } := by
  rw [processSlots_eq]
  congr 1
  refine List.ext_getElem? fun k => ?_
  rw [List.getElem?_mapIdx, List.getElem?_map]
  rcases hc : s.slots[k]? with _ | c
  · rfl
  · have hk : k ∈ matchSlots s.config.accept (frameTarget f) ↔ c.const.acceptAddr = targetOf f.id := by
      simp [frameTarget, mem_matchSlots_target, hc]
    simp [hk, Slot.process_eq_afterPayload]

theorem processSlots_nil (p : List Byte) (s : State) : processSlots [] p s = s := by
  simp [processSlots, State.forSlots]

/-! ## The branches of DISPATCH -/

theorem dispatch_units (hu : targetOf f.id = s.params.addrUnits) : dispatch f s = unitBroadcast f s := by
  simp only [dispatch, classOf_units hu]

/-- A frame that is no broadcast is processed by the slots of M, also when M is empty. -/
theorem dispatch_not_units (hu : targetOf f.id ≠ s.params.addrUnits) :
    dispatch f s = processSlots (matchSlots s.config.accept (frameTarget f)) f.payload s := by
  unfold frameTarget
  by_cases hm : matchSlots s.config.accept (decodeIdent f.id).target = []
  · simp only [dispatch, classOf_not_units hu, hm, if_true, processSlots_nil]
  · simp only [dispatch, classOf_not_units hu, if_neg hm]

theorem dispatch_ignored (hu : targetOf f.id ≠ s.params.addrUnits)
    (h : ∀ c ∈ s.slots, c.const.acceptAddr ≠ targetOf f.id) : dispatch f s = s := by
  simp only [dispatch, classOf_ignored hu h]

theorem exec_dispatch (hr : s.Running) : exec (.dispatch f) s = .next (dispatch f s) := exec_running hr trivial

/-- The code and the operand fields of DISPATCH spell it (R79, R83). -/
theorem decode_dispatch (h : f.payload.length ≤ 8) :
    decodeCommand 0x41#8 (f.id.toNat :: payloadFields f.payload) = .ok (.dispatch f) :=
  decodeOfEncode Config.vectors (.dispatch f) (decide_eq_true h) (by simp)

end Sys2Proof.Machine

open Sys2Proof Sys2Proof.Machine Sys2Proof.Claims

/-- Settles O31: the slots FRAME_CHANNEL computes are those that accept the target. -/
theorem frameChannelReachesEveryMatch : Obligations.FrameChannelReachesEveryMatch := by
  intro f s hr
  rw [← processSlots_target]
  exact exec_running hr trivial

/-- Settles O29: by the branches of CLASSIFY, the last two being FRAME_CHANNEL's with M filled or empty. -/
theorem dispatchFollowsClass : Obligations.DispatchFollowsClass := by
  refine ⟨fun f hl => decode_dispatch hl, fun f s hr => ?_⟩
  rw [exec_dispatch hr]
  refine ⟨fun hu => ?_, fun hu => ?_, fun hu hn => by rw [dispatch_ignored hu hn], ?_⟩
  · rw [exec_frameUnits hr, dispatch_units hu]
  · rw [dispatch_not_units hu, processSlots_target]
  · obtain ⟨sl, l, he, -, -, hl⟩ := dispatch_form f s
    exact ⟨_, l, rfl, by rw [he], hl⟩

end

section
/-! CYCLE in its three parts, and STEP as the command MODE selects (R203, R205, R193). -/

namespace Sys2Proof.Machine

variable {s : State} {f : Frame}

theorem State.Running.drawFrame (hr : s.Running) : s.drawFrame.2.Running := by
  obtain ⟨q, d, e, -⟩ := drawFrame_form s
  rwa [e]

theorem State.Running.dispatch (hr : s.Running) (f : Frame) : (dispatch f s).Running := by
  obtain ⟨sl, l, e, -⟩ := dispatch_form f s
  rwa [e]

theorem exec_arbitrate (hr : s.Running) : exec .arbitrate s = .next (arbitrate s) := exec_running hr trivial

theorem exec_cycle (hr : s.Running) (hm : s.mode = .loop) : exec .cycle s = .next (cycle s) := by
  rw [exec_running (i := .cycle) hr trivial, effect, if_pos hm]

theorem cycle_no_frame (h : s.drawFrame.1 = none) : cycle s = arbitrate s.drawFrame.2 := by
  simp only [cycle, h]

theorem cycle_frame (h : s.drawFrame.1 = some f) : cycle s = arbitrate (dispatch f s.drawFrame.2) := by
  simp only [cycle, h]

theorem stepMode_loop (hm : s.mode = .loop) : stepMode s = cycle s := by
  simp only [stepMode, hm]

/-- A STEP after the first is what MODE selects. -/
theorem exec_step_locked (hr : s.Running) (hl : s.regLocked = true) : exec .step s = .next (stepMode s) := by
  rw [exec_running (i := .step) hr trivial, effect, stepBlock, if_pos hl]

/-- What MODE selects neither unlocks the registry nor records a refusal: each half fits its MODE. -/
theorem stepMode_keeps (hm : s.mode ≠ .reset) :
    (stepMode s).regLocked = s.regLocked ∧ (stepMode s).refused = s.refused := by
  rcases hs : s.mode with ⟨ph, sub⟩ | _ | _
  · obtain ⟨m, e, w, l, q, d, he⟩ := initStep_writes hs
    simp [stepMode_init hs, he]
  · obtain ⟨sl, l, l', la, q, d, he, -⟩ := cycle_form s
    simp [stepMode_loop hs, he]
  · exact absurd hs hm

end Sys2Proof.Machine

open Sys2Proof.Machine

/-- Settles O33: CYCLE in LOOP is the poll, DISPATCH of what it gave, and ARBITRATE; in INIT it is refused. -/
theorem cycleDispatchesThenArbitrates : Obligations.CycleDispatchesThenArbitrates := by
  refine ⟨rfl, fun s hr => ⟨fun hm => ?_, (wrongModeRefused s hr).2⟩⟩
  rw [exec_cycle hr hm]
  have hp := hr.drawFrame
  refine ⟨fun hn => ?_, fun f hf => ⟨_, exec_dispatch hp, ?_⟩, ?_⟩
  · rw [exec_arbitrate hp, cycle_no_frame hn]
  · rw [exec_arbitrate (hp.dispatch f), cycle_frame hf]
  · obtain ⟨sl, l, l', la, q, d, he, -, -, -, hl, hl'⟩ := cycle_form s
    exact ⟨_, l, l', rfl, by rw [he]; exact hm, by rw [he], hl, hl'⟩

/-- Settles O38: the two halves of what MODE selects. -/
theorem stepFollowsMode : Obligations.StepFollowsMode := by
  intro s hr hlock
  have ⟨_, hrefused, hmode⟩ := hr
  rw [exec_step_locked hr hlock]
  refine ⟨?_, fun hm => by rw [exec_cycle hr hm, stepMode_loop hm], _, rfl, ?_⟩
  · rintro ⟨ph, sub, hm⟩
    rw [exec_initStep hr, stepMode_init hm]
  · obtain ⟨hl, href⟩ := stepMode_keeps hmode
    exact ⟨hl.trans hlock, href.trans hrefused⟩

/-- Settles O39: a STEP past the checks is what MODE selects with the registry locked, and so is a later one. -/
theorem firstStepChecksAndLocks : Obligations.FirstStepChecksAndLocks := by
  intro s hr hl
  refine ⟨fun chk hc => exec_step_configInvalid hr hl hc, fun hc => ?_⟩
  rw [exec_step_locked (s := { s with regLocked := true }) hr rfl, exec_running (i := .step) hr trivial, effect,
    stepBlock_checked (.inr hc)]

end

section
/-! ARBITRATE scan by scan: the first fresh slot, the first available slot, the clearing of what was shown (R220). -/

namespace Sys2Proof.Machine

variable {s : State} {i : Nat} {c : Slot}

theorem Slot.shouldRender_iff (c : Slot) : c.shouldRender = true ↔ c.hasData = true ∧ c.dirty = true :=
  Bool.and_eq_true_iff

theorem Slot.shouldRender_eq_false_iff (c : Slot) :
    c.shouldRender = false ↔ ¬ (c.hasData = true ∧ c.dirty = true) := by
  rw [← c.shouldRender_iff, Bool.not_eq_true]

theorem firstFresh_none :
    s.firstSlot Slot.shouldRender = none ↔ ∀ d ∈ s.slots, ¬ (d.hasData = true ∧ d.dirty = true) := by
  simp only [firstSlot_none, Slot.shouldRender_eq_false_iff]

theorem arbitrate_fresh (hi : s.firstSlot Slot.shouldRender = some i) : arbitrate s = show_ i s := by
  simp only [arbitrate, hi]

theorem arbitrate_available (hf : s.firstSlot Slot.shouldRender = none) (hi : s.firstSlot Slot.canRender = some i) :
    arbitrate s = if s.last = some i then s else show_ i s := by
  simp only [arbitrate, hf, hi]

/-- With no data anywhere both scans find nothing. -/
theorem arbitrate_without_data (h : ∀ d ∈ s.slots, d.hasData = false) : arbitrate s = clearShown s := by
  have hf : s.firstSlot Slot.shouldRender = none := firstFresh_none.2 fun d hd => by simp [h d hd]
  have ha : s.firstSlot Slot.canRender = none := firstSlot_none.2 h
  simp only [arbitrate, hf, ha]

theorem clearShown_none (h : s.last = none) : clearShown s = s := by
  simp only [clearShown, h]

theorem clearShown_shown (h : s.last ≠ none) :
    clearShown s = { s with events := s.events ++ [.clear], last := none } := by
  obtain ⟨k, hk⟩ := Option.ne_none_iff_exists'.1 h
  simp only [clearShown, hk, State.emit]

end Sys2Proof.Machine

open Sys2Proof.Machine

/-- Settles O34: the first scan ends at slot i, and LAST is not read. -/
theorem arbitrateShowsFirstFresh : Obligations.ArbitrateShowsFirstFresh := by
  intro i s c hr hc hd hdirty hlow
  have hi : s.firstSlot Slot.shouldRender = some i :=
    firstSlot_some.2 ⟨c, hc, c.shouldRender_iff.2 ⟨hd, hdirty⟩,
      fun j hj d hj' => d.shouldRender_eq_false_iff.2 (hlow j hj d hj')⟩
  rw [exec_arbitrate hr, arbitrate_fresh hi, show_data hc hd, Slot.clean]

/-- Settles O35: the first scan finds nothing, the second ends at slot i, and LAST decides. -/
theorem arbitrateShowsFirstAvailable : Obligations.ArbitrateShowsFirstAvailable := by
  intro i s c hr hquiet hc hd hlow
  have hi : s.firstSlot Slot.canRender = some i := firstSlot_some.2 ⟨c, hc, hd, hlow⟩
  rw [exec_arbitrate hr, arbitrate_available (firstFresh_none.2 hquiet) hi]
  refine ⟨fun hl => by rw [if_pos hl], fun hl => ?_⟩
  rw [if_neg hl, show_data hc hd, Slot.clean]

/-- Settles O37: the three cases of ARBITRATE's one inversion lemma. -/
theorem lastFollowsTheDisplay : Obligations.LastFollowsTheDisplay := by
  intro s t h
  obtain ⟨-, -, rfl⟩ := exec_next.1 h
  rw [effect]
  rcases arbitrate_cases s with ⟨i, c, -, -, e⟩ | e | ⟨-, -, e⟩ <;> rw [e]
  · exact .inr (.inr ⟨i, c.value, c.units, rfl, rfl⟩)
  · exact .inl ⟨rfl, rfl⟩
  · exact .inr (.inl ⟨rfl, rfl⟩)

/-- Settles O36: both scans find nothing, so step 3 decides by LAST. -/
theorem arbitrateClearsOnlyWhatWasShown : Obligations.ArbitrateClearsOnlyWhatWasShown := by
  intro s hr hn
  rw [exec_arbitrate hr, arbitrate_without_data hn]
  exact ⟨fun hl => by rw [clearShown_none hl], fun hl => by rw [clearShown_shown hl]⟩

end

section
/-! What records a fault: RENDER on a slot without data (R303), and never the environment's STEP (R301). -/

namespace Sys2Proof.Machine

variable {s : State} {i : Nat} {c : Slot}

theorem renderAt_without_data (hc : s.slots[i]? = some c) (hd : c.hasData = false) :
    renderAt i s = s.raise (.renderWithoutData i) := by
  simp [renderAt, withSlot_some hc, hd]

/-- What MODE selects leaves FAULT: an init step writes the watchdog's fields, and a cycle renders only slots with
data. -/
theorem stepMode_fault (s : State) : (stepMode s).fault = s.fault := by
  rcases hs : s.mode with ⟨ph, sub⟩ | _ | _
  · obtain ⟨m, e, w, l, q, d, he⟩ := initStep_writes hs
    rw [stepMode_init hs, he]
  · obtain ⟨sl, l, l', la, q, d, he, -⟩ := cycle_form s
    rw [stepMode_loop hs, he]
  · simp only [stepMode, hs]

/-- A STEP is a first one that refuses its configuration, or what MODE selects with the registry locked (R205, R305). -/
theorem stepBlock_cases (s : State) :
    (s.regLocked = false ∧ ∃ chk, stepBlock s = s.refuse (.configInvalid chk)) ∨
      stepBlock s = stepMode { s with regLocked := true } := by
  by_cases h : s.regLocked = true ∨ s.ConfigOk
  · exact .inr (stepBlock_checked h)
  · obtain ⟨hl, hbad⟩ := not_or.1 h
    obtain ⟨chk, hchk⟩ := Option.ne_none_iff_exists'.1 hbad
    exact .inl ⟨Bool.eq_false_iff.2 hl, chk, by simp [stepBlock, hl, hchk]⟩

end Sys2Proof.Machine

open Sys2Proof.Machine

/-- Settles O55: a refused configuration is refused before the lock, and what MODE selects leaves FAULT and REFUSED as
they were in a state that has a step. -/
theorem stepNeverFaults : Obligations.StepNeverFaults := by
  intro s t h
  obtain ⟨⟨hfault, hrefused, hmode⟩, -, rfl⟩ := exec_next.1 h
  rw [effect]
  rcases stepBlock_cases s with ⟨hl, chk, e⟩ | e <;> rw [e]
  · exact ⟨hfault, fun hlock => absurd hlock (Bool.eq_false_iff.1 hl)⟩
  · have hkeeps := stepMode_keeps (s := { s with regLocked := true }) hmode
    exact ⟨(stepMode_fault _).trans hfault, fun _ => hkeeps.2.trans hrefused⟩

/-- Settles O22: the slot check passes and the data check fails. -/
theorem renderWithoutDataFaults : Obligations.RenderWithoutDataFaults := by
  intro i s c hr hc hd
  rw [exec_running (i := .render i) hr trivial, effect, renderAt_without_data hc hd, State.raise]

end

section
/-! What R408 freezes: the configuration, which no step writes, and the registry, which only REG_SET and the first STEP
write, neither of them once it is locked. -/

namespace Sys2Proof.Machine

/-- REG_LOCKED with the entries REG[0..N-1]: what R408 freezes at the first step. -/
def State.registry (s : State) : Bool × List (Option Nat) := (s.regLocked, s.slots.map (·.reg))

variable {s t : State}

theorem registry_eq_iff :
    t.registry = s.registry ↔ t.regLocked = s.regLocked ∧ t.slots.map (·.reg) = s.slots.map (·.reg) :=
  Prod.mk_inj

/-! ## Writing the state -/

theorem modSlot_registry {g : Slot → Slot} (hg : ∀ c, (g c).reg = c.reg) (s : State) (i : Nat) :
    (s.modSlot i g).registry = s.registry := by
  refine registry_eq_iff.2 ⟨rfl, List.ext_getElem? fun k => ?_⟩
  rcases eq_or_ne i k with rfl | hk
  · simp [Function.comp_def, hg]
  · simp [hk]

theorem withSlot_registry {i : Nat} {k : Slot → State} (hk : ∀ c, (k c).registry = s.registry) :
    (s.withSlot i k).registry = s.registry := by
  rcases withSlot_cases s i k with ⟨-, e⟩ | ⟨c, -, e⟩ <;> rw [e]
  · rfl
  · exact hk c

theorem forSlots_registry {f : Nat → State → State} (hf : ∀ i u, (f i u).registry = u.registry) (s : State) :
    (s.forSlots f).registry = s.registry :=
  List.foldlRecOn (motive := fun u => u.registry = s.registry) _ _ rfl fun u hu i _ => (hf i u).trans hu

theorem drawFrame_registry (s : State) : s.drawFrame.2.registry = s.registry := by
  obtain ⟨q, d, e, -⟩ := drawFrame_form s
  exact e ▸ rfl

/-! ## The watchdog's operations -/

theorem WatchdogWrites.registry_eq (h : WatchdogWrites s t) : t.registry = s.registry := by
  obtain ⟨m, e, w, l, q, d, rfl⟩ := h
  rfl

theorem initStep_registry (s : State) : (initStep s).registry = s.registry := by
  rcases hm : s.mode with ⟨ph, sub⟩ | _ | _
  · exact (initStep_writes hm).registry_eq
  · simp only [initStep, hm]
    rfl
  · simp only [initStep, hm]
    rfl

theorem guardedAttempt_registry (op : Op) (s : State) : (guardedAttempt op s).registry = s.registry := by
  have hd := (driveOnce_writes op s).registry_eq
  rcases guardedAttempt_cases op s with ⟨-, e⟩ | ⟨-, e⟩ <;> rw [e] <;> exact hd

/-! ## The channels and the loop -/

theorem processFrameAt_registry (p : List Byte) (i : Nat) (s : State) :
    (processFrameAt p i s).registry = s.registry :=
  modSlot_registry (Slot.process_reg p) s i

theorem setUnitsAt_registry (u : Units) (i : Nat) (s : State) : (setUnitsAt u i s).registry = s.registry :=
  modSlot_registry (Slot.withUnits_reg · u) s i

theorem renderAt_registry (i : Nat) (s : State) : (renderAt i s).registry = s.registry := by
  refine withSlot_registry fun c => ?_
  split
  · exact modSlot_registry Slot.clean_reg _ i
  · rfl

theorem processSlots_registry (m : List Nat) (p : List Byte) (s : State) :
    (processSlots m p s).registry = s.registry := by
  refine forSlots_registry (fun i u => ?_) s
  split
  · exact processFrameAt_registry p i u
  · rfl

theorem dispatch_registry (f : Frame) (s : State) : (dispatch f s).registry = s.registry := by
  obtain ⟨sl, l, e, -, hr, -⟩ := dispatch_form f s
  exact registry_eq_iff.2 (e ▸ ⟨rfl, hr⟩)

theorem unitBroadcast_registry (f : Frame) (s : State) : (unitBroadcast f s).registry = s.registry := by
  unfold unitBroadcast
  split
  · rfl
  · split
    · rfl
    · next u _ => exact forSlots_registry (setUnitsAt_registry u) s

theorem arbitrate_registry (s : State) : (arbitrate s).registry = s.registry := by
  obtain ⟨sl, l, la, e, -, hr, -⟩ := arbitrate_form s
  exact registry_eq_iff.2 (e ▸ ⟨rfl, hr⟩)

theorem cycle_registry (s : State) : (cycle s).registry = s.registry := by
  obtain ⟨sl, l, l', la, q, d, e, -, hr, -⟩ := cycle_form s
  exact registry_eq_iff.2 (e ▸ ⟨rfl, hr⟩)

theorem stepMode_registry (s : State) : (stepMode s).registry = s.registry := by
  unfold stepMode
  split
  · exact initStep_registry s
  · exact cycle_registry s
  · rfl

/-! ## The instructions -/

/-- Once the registry is locked, REG_SET is refused (R191), STEP is past its first (R205), and no other instruction
writes an entry or the lock. -/
theorem effect_registry (hl : s.regLocked = true) (i : Instr) : (effect i s).registry = s.registry := by
  cases i with
  | extract | pack | decodeId | encodeId | classify | regGet | clearErrors | frameIgnored => rfl
  | countError => exact (countError_writes s).registry_eq
  | guardedAttempt op => exact guardedAttempt_registry op s
  | initStep => exact initStep_registry s
  | recognize | shouldRender | canRender | getName => exact withSlot_registry fun _ => rfl
  | processFrame i _ p => exact withSlot_registry fun _ => processFrameAt_registry p i s
  | setUnits i u => exact withSlot_registry fun _ => setUnitsAt_registry u i s
  | render i => exact renderAt_registry i s
  | regSet n ch =>
    rw [effect, regSet_locked hl]
    rfl
  | poll => exact drawFrame_registry s
  | dispatch f => exact dispatch_registry f s
  | cycle =>
    simp only [effect]
    split
    · exact cycle_registry s
    · rfl
  | arbitrate => exact arbitrate_registry s
  | step =>
    rw [effect, stepBlock, if_pos hl]
    exact stepMode_registry s
  | frameUnits f => exact unitBroadcast_registry f s
  | frameChannel f => exact processSlots_registry _ _ s

/-- What is fetched, an instruction or a refusal of the command port, leaves a locked registry alone. -/
theorem step_registry (hl : s.regLocked = true) (h : step s = .next t) : t.registry = s.registry := by
  obtain ⟨l, q, r, ⟨i, hi⟩ | ⟨c, -, rfl⟩⟩ := step_next h
  · obtain ⟨-, -, rfl⟩ := exec_next.1 hi
    exact effect_registry (s := { s with issued := l, attemptIn := q, frameIn := r }) hl i
  · rfl

/-! ## The configuration -/

theorem Move.params_eq (m : Move s t) : t.params = s.params := by
  cases m with
  | quiet q => exact q.params_eq
  | count => rcases countError_cases s with ⟨-, e⟩ | ⟨-, e⟩ <;> rw [e]
  | enter => rfl
  | arbitrate =>
    obtain ⟨sl, l, la, e, -⟩ := arbitrate_form s
    rw [e]

/-- Slots evolve without their constants, and nothing writes the parameters (R6, R32). -/
theorem Move.config_eq (m : Move s t) : t.config = s.config :=
  config_of_const m.params_eq m.slotsEvolve.const_map

theorem Moves.config_eq (m : Moves s t) : t.config = s.config := by
  induction m with
  | refl => rfl
  | tail _ hm ih => exact hm.config_eq.trans ih

theorem step_config (h : step s = .next t) : t.config = s.config := by
  obtain ⟨u, hu, rfl | ⟨-, rfl⟩⟩ := step_moves h <;> exact (hu.config_eq :)

end Sys2Proof.Machine

open Sys2Proof Sys2Proof.Machine

/-- Settles O50: every move keeps the configuration, every instruction a locked registry, and the lock is REG_SET's
first check. -/
theorem configurationIsStatic : Obligations.ConfigurationIsStatic := by
  refine ⟨fun s t h => ⟨step_config h, fun hl => ?_⟩, fun n ch s hr hl => ?_⟩
  · obtain ⟨hlock, hregs⟩ := registry_eq_iff.1 (step_registry hl h)
    exact ⟨hlock.trans hl, hregs⟩
  · rw [exec_regSet hr, regSet_locked hl, State.refuse]

end

section
/-! Assembly of the registry (R402, step 4): the REG_SETs so far have registered the slots before the next one. -/

namespace Sys2Proof.Machine

/-- A slot with channel `i` at it. -/
def Slot.registered (i : Nat) (c : Slot) : Slot := { c with reg := some i }

/-- The block with channel i at each slot i below `k` (R36, log 9). -/
def State.assembled (k : Nat) (s : State) : State :=
  (List.range k).foldl (fun t i => t.modSlot i (Slot.registered i)) s

/-- REG_SET of channel `i` at slot `i`, when it answers a next state. -/
def assemblyStep (s : State) (i : Nat) : Option State :=
  match exec (.regSet i i) s with
  | .next t => some t
  | .fault _ => none
  | .refused _ => none

variable {s : State} {k : Nat}

theorem assembled_succ (k : Nat) (s : State) :
    s.assembled (k + 1) = (s.assembled k).modSlot k (Slot.registered k) := by
  simp [State.assembled, List.range_succ]

theorem assembled_eq (k : Nat) (s : State) :
    s.assembled k = { s with slots := s.slots.mapIdx fun i c => if i < k then c.registered i else c } :=
  foldl_modSlot _ k s

/-- The slots from `k` on are not yet registered. -/
theorem assembled_getElem?_self (k : Nat) (s : State) : (s.assembled k).slots[k]? = s.slots[k]? := by
  simp [assembled_eq]

theorem assemblyStep_of_unset {c : Slot} (hr : s.Running) (hl : s.regLocked = false) (hc : s.slots[k]? = some c)
    (hunset : c.reg = none) : assemblyStep s k = some (s.modSlot k (Slot.registered k)) := by
  rw [assemblyStep, exec_regSet hr, regSet_unset hl hc hunset, modSlot_of_some hc, Slot.registered]

/-- REG_SETs in slot order register one slot after another, while there are slots not set. -/
theorem foldlM_assemblyStep (hr : s.Running) (hl : s.regLocked = false) (hunset : ∀ c ∈ s.slots, c.reg = none)
    (hk : k ≤ s.slots.length) : (List.range k).foldlM assemblyStep s = some (s.assembled k) := by
  induction k with
  | zero => rfl
  | succ k ih =>
    have hc : (s.assembled k).slots[k]? = some s.slots[k] := by
      rw [assembled_getElem?_self, List.getElem?_eq_getElem hk]
    have hstep : assemblyStep (s.assembled k) k = some (s.assembled (k + 1)) := by
      rw [assembled_succ]
      refine assemblyStep_of_unset ?_ ?_ hc (hunset _ (List.getElem_mem hk))
      · rwa [assembled_eq]
      · rwa [assembled_eq]
    rw [List.range_succ, List.foldlM_append, ih (by omega)]
    simpa using hstep

/-- With every slot registered the constructed block is the reset state. -/
theorem assembled_beforeAssembly (cfg : Config) (u : Units) :
    (State.beforeAssembly cfg u).assembled cfg.slots.length = State.resetOf cfg u := by
  have hn : (State.beforeAssembly cfg u).n = cfg.slots.length := List.length_map _
  rw [← hn]
  exact forSlots_modSlot Slot.registered _

end Sys2Proof.Machine

open Sys2Proof Sys2Proof.Machine

/-- Settles O59: no slot is set before its own REG_SET, so each one writes its slot, and together they register all. -/
theorem assemblyGivesReset : Obligations.AssemblyGivesReset := by
  intro cfg u
  rw [← assembled_beforeAssembly]
  refine foldlM_assemblyStep (s := State.beforeAssembly cfg u) ⟨rfl, rfl, nofun⟩ rfl ?_ (List.length_map _).ge
  simp [State.beforeAssembly, Slot.constructed]

end
